-- ==== Sys2Proof/Word.lean ====
section
/-! DEFINITION. The basic types of 10_state.md R20: bytes, byte sequences, 16- and 32-bit values,
the timestamp source, the timestamp and the mode. -/

namespace Sys2Proof

/-- An 8-bit unsigned value (R20). -/
abbrev Byte := BitVec 8

/-- A finite sequence of bytes, lowest offset first (R20, R11). -/
abbrev Bytes := List Byte

/-- A 16-bit unsigned value (R20). -/
abbrev U16 := BitVec 16

/-- A 32-bit unsigned value (R20). -/
abbrev U32 := BitVec 32

/-- The timestamp source, a closed two-way choice (R10, R20). -/
inductive TsSrc where
  /-- The relative-clock source, code 0. -/
  | rtc
  /-- The precision-time-protocol source, code 1. -/
  | ptp
  deriving DecidableEq, Repr, Inhabited

/-- The code of a timestamp source as a bit: 0 is RTC, 1 is PTP (R10). -/
def TsSrc.bit : TsSrc → Bool
  | .rtc => false
  | .ptp => true

/-- The timestamp source a code bit stands for (R10). -/
def TsSrc.ofBit : Bool → TsSrc
  | false => .rtc
  | true => .ptp

/-- A decoded timestamp. PCMDF stores it, hands it to the codec and compares it, and never looks
inside (R20); `code` is its one representation, the number its TS_W bits hold (R26, R241). -/
structure TS where
  code : Nat
  deriving DecidableEq, Repr, Inhabited

/-- The timestamp that these bits carry (00_scope.md R9, R241). -/
def TS.ofBits {w : Nat} (b : BitVec w) : TS := ⟨b.toNat⟩

/-- The bits that carry a timestamp (00_scope.md R9). -/
def TS.bits (w : Nat) (t : TS) : BitVec w := BitVec.ofNat w t.code

/-- Throughput or framed (R20). -/
inductive Mode where
  /-- Framed, FR. -/
  | fr
  /-- Throughput, TP. -/
  | tp
  deriving DecidableEq, Repr, Inhabited

end Sys2Proof
end

