-- ==== Sys2Proof/Config.lean ====
section
/-! DEFINITION. What an implementation fixes (00_scope.md R7, R9): the constants, the parameters with
their constraints, the timestamp codec; and the free values of 93_implementation_defined.md U1 to U3. -/

namespace Sys2Proof

/-! The constants of R7. -/

/-- `MODE_WORD_BYTES` (R7). -/
def modeWordBytes : Nat := 4

/-- `TP_BIT` (R7). -/
def tpBit : Nat := 20

/-- `TS_BYTES` (R7). -/
def tsBytes : Nat := 8

/-- `REC_HDR_BYTES`: the timestamp and the header word (R7). -/
def recHdrBytes : Nat := 10

/-- `SS_BYTES`: the sync word and the SFID (R7). -/
def ssBytes : Nat := 6

/-- `PAD_BYTE` (R7). -/
def padByte : Byte := 0x00#8

/-- `FIRST_REC_OFFSET` (R7). -/
def firstRecOffset : Nat := 4

/-- The implementation parameters with the constraints R9 puts on them: a parameter set that breaks a
constraint cannot be built. -/
structure Params where
  /-- `OFF_W`, the width of every offset, length, size and count register. -/
  offW : Nat
  /-- `BUF_CAP`, the bytes of IBUF. -/
  bufCap : Nat
  /-- `OUT_CAP`, the bytes of OBUF. -/
  outCap : Nat
  /-- `FRM_CAP`, the frames of the frame store. -/
  frmCap : Nat
  /-- `PAY_CAP`, the largest payload of one frame. -/
  payCap : Nat
  /-- `TS_W`, the bits that carry a timestamp. -/
  tsW : Nat
  offW_ge : 5 ≤ offW
  bufCap_ge : 4 ≤ bufCap
  bufCap_le : bufCap ≤ 2 ^ offW - 2
  outCap_ge : 4 ≤ outCap
  outCap_le : outCap ≤ 2 ^ offW - 1
  frmCap_ge : (bufCap - 4) / 10 ≤ frmCap
  frmCap_pos : 1 ≤ frmCap
  payCap_ge : bufCap - 4 ≤ payCap
  deriving DecidableEq, Repr

/-- The parameter set of 95_test_vectors.md section 0. DESIGN CHOICE, unsafe for statements about the
reset state alone (log entry 1). -/
def Params.vectors : Params where
  offW := 16
  bufCap := 4096
  outCap := 4096
  frmCap := 409
  payCap := 4092
  tsW := 64
  offW_ge := by decide
  bufCap_ge := by decide
  bufCap_le := by decide
  outCap_ge := by decide
  outCap_le := by decide
  frmCap_ge := by decide
  frmCap_pos := by decide
  payCap_ge := by decide

/-- A timestamp codec (60_exceptions.md R240): two total pure functions. `dec` is given the eight wire
bytes in wire order and may reject them; `enc` cannot fail and returns exactly eight bytes. -/
structure Codec where
  dec : TsSrc → Bytes → Option TS
  enc : TsSrc → TS → Vector Byte 8

/-- `ts_dec` of an instance whose timestamps have this many bits (TS_W). A parameter, opaque (R9, R240, 93 V5;
log entry 2). -/
opaque Config.tsDec (w : Nat) : TsSrc → Bytes → Option (BitVec w)

/-- `ts_enc` of an instance whose timestamps have this many bits (TS_W). A parameter, opaque (R9, R240; log
entry 2). -/
opaque Config.tsEnc (w : Nat) : TsSrc → BitVec w → Vector Byte 8

/-- FREE VALUE (93 U1): what IBUF holds, after the given number of resets, at an offset the host has
not written since (log entry 4). -/
opaque Config.ibufFree : Nat → Nat → Byte

/-- FREE VALUE (93 U2): what OBUF holds, after the given number of resets, at an address no encode has
written since (log entry 4). -/
opaque Config.obufFree : Nat → Nat → Byte

/-- FREE VALUE (93 U3): what A_PAY holds, after the given number of resets, at an index the host has
not written since (log entry 4). -/
opaque Config.apayFree : Nat → Nat → Byte

/-- FREE VALUE (93 U3): the bits that A_TS, a register of this width (TS_W), holds after the given number of
resets until the host writes it; a model must not assume zero (70_reset_and_hazards.md R251; log entry 5). -/
opaque Config.aTsFree (w : Nat) : Nat → BitVec w

end Sys2Proof
end

