-- ==== Sys2Proof/Syntax.lean ====
section
/-! DEFINITION. The operations of PCMDF: one constructor per row of opcode_table.json (30_encoding.md
R106), with the operands the operation's rule gives it beside the state. -/

namespace Sys2Proof

/-- `PHASE`: which small step is next (10_state.md R46). -/
inductive Phase where
  | idle
  | dMode
  | dTp
  | dFre
  | dFr
  | eHdr
  | eTp
  | eFr
  deriving DecidableEq, Repr, Inhabited

/-- Where the payload of a framed record starts: the operand `c` of `FX.PAY`, 10 after `FX.HDR` alone
and 16 after `FX.SS` (40_minor_frame_decode.md R124). -/
inductive PayStart where
  | afterHdr
  | afterSs
  deriving DecidableEq, Repr, Inhabited

/-- The operations of PCMDF, one for each row of opcode_table.json. -/
inductive Instr where
  /-- `CMD.NOP`, command code 0 (44_host_commands.md R203). -/
  | cmdNop
  /-- `CMD.CLEAR`, command code 1 (R197). -/
  | cmdClear
  /-- `CMD.DECODE`, command code 2 (R198, R160). -/
  | cmdDecode
  /-- `CMD.ENCODE`, command code 3 (R199, R181). -/
  | cmdEncode
  /-- `CMD.APPEND`, command code 4 (R200, R202). -/
  | cmdAppend
  /-- Reserved command code 5 (R207). -/
  | cmdReserved5
  /-- Reserved command code 6 (R207). -/
  | cmdReserved6
  /-- Reserved command code 7 (R207). -/
  | cmdReserved7
  /-- `DP.MODE`, read the mode word and route (42_data_packet_decode.md R161). -/
  | dpMode
  /-- `DP.DEC.TP`, decode the throughput body (R162). -/
  | dpDecTp
  /-- `DP.DEC.FR`, enter the framed iteration (R163). -/
  | dpDecFr
  /-- `DP.DEC.FR.STEP`, decode one record and advance (R165). -/
  | dpDecFrStep
  /-- `DP.DEC.FR.STOP`, end the iteration (R166). -/
  | dpDecFrStop
  /-- `MF.DEC.TP`, decode a throughput record (40_minor_frame_decode.md R126). -/
  | mfDecTp (region : Bytes)
  /-- `MF.DEC.FR`, decode a framed record without extraction (R127). -/
  | mfDecFr (region : Bytes) (src : TsSrc)
  /-- `MF.DEC.FRS`, decode a framed record with extraction (R128). -/
  | mfDecFrs (region : Bytes) (src : TsSrc)
  /-- `FX.TS`, extract the timestamp (R120). -/
  | fxTs (region : Bytes) (src : TsSrc)
  /-- `FX.HDR`, extract the header word (R121). -/
  | fxHdr (region : Bytes)
  /-- `FX.SS`, unpack the sync word and the SFID (R122). -/
  | fxSs (region : Bytes)
  /-- `FX.PAY`, slice the payload (R124). -/
  | fxPay (region : Bytes) (start : PayStart)
  /-- `MF.ENC.TP`, encode a throughput frame (41_minor_frame_encode.md R141). -/
  | mfEncTp (payload : Bytes)
  /-- `MF.ENC.FR`, encode a framed frame without sync group (R142). -/
  | mfEncFr (ts : Option TS) (hdr : U16) (payload : Bytes) (src : TsSrc)
  /-- `MF.ENC.FRS`, encode a framed frame with sync word and SFID (R143). -/
  | mfEncFrs (ts : Option TS) (hdr : U16) (sync : U32) (sfid : U16) (payload : Bytes) (src : TsSrc)
  /-- `DP.ENC.HDR`, emit the mode word (43_data_packet_encode.md R182). -/
  | dpEncHdr
  /-- `DP.ENC.TP`, emit the throughput body (R183). -/
  | dpEncTp
  /-- `DP.ENC.FR.STEP`, emit one frame and its pad (R184). -/
  | dpEncFrStep
  /-- `DP.ENC.FR.STOP`, end the framed encode (R185). -/
  | dpEncFrStop
  /-- `RD.FRAME(i)`, indexed lookup of a frame (44_host_commands.md R204). -/
  | rdFrame (i : Nat)
  /-- `RD.PAY(i, k)`, read one payload byte (R205). -/
  | rdPay (i k : Nat)
  /-- `RD.OUT(k)`, read one byte of the encoded packet (R206). -/
  | rdOut (k : Nat)
  deriving DecidableEq, Repr

end Sys2Proof
end

