-- ==== Sys2Proof/WellFormed.lean ====
section
/-! DEFINITION. When an operation's operands are ones the hardware can be given. -/

namespace Sys2Proof

/-- The number of bytes consumed before the payload (40_minor_frame_decode.md R124). -/
def PayStart.bytes : PayStart → Nat
  | .afterHdr => recHdrBytes
  | .afterSs => recHdrBytes + ssBytes

/-- A number fits an `Off` operand, OFF_W bits (10_state.md R20). -/
def Params.fitsOff (p : Params) (n : Nat) : Bool := decide (n < 2 ^ p.offW)

/-- A timestamp operand fits TS_W bits (00_scope.md R9). -/
def Params.fitsTs (p : Params) (t : Option TS) : Bool :=
  match t with
  | none => true
  | some t => decide (t.code < 2 ^ p.tsW)

/-- The operands are ones the hardware can be given: an index or position fits OFF_W bits (R204 to
R206), a timestamp fits TS_W bits, a frame's payload fits the frame store (00_scope.md R9), and
`FX.PAY` comes after the length tests that ensure `len(region) >= c` (R124). -/
def Instr.wellFormed (p : Params) : Instr → Bool
  | .cmdNop => true
  | .cmdClear => true
  | .cmdDecode => true
  | .cmdEncode => true
  | .cmdAppend => true
  | .cmdReserved5 => true
  | .cmdReserved6 => true
  | .cmdReserved7 => true
  | .dpMode => true
  | .dpDecTp => true
  | .dpDecFr => true
  | .dpDecFrStep => true
  | .dpDecFrStop => true
  | .mfDecTp _ => true
  | .mfDecFr _ _ => true
  | .mfDecFrs _ _ => true
  | .fxTs _ _ => true
  | .fxHdr _ => true
  | .fxSs _ => true
  | .fxPay region start => decide (start.bytes ≤ region.length)
  | .mfEncTp payload => decide (payload.length ≤ p.payCap)
  | .mfEncFr ts _ payload _ => p.fitsTs ts && decide (payload.length ≤ p.payCap)
  | .mfEncFrs ts _ _ _ payload _ => p.fitsTs ts && decide (payload.length ≤ p.payCap)
  | .dpEncHdr => true
  | .dpEncTp => true
  | .dpEncFrStep => true
  | .dpEncFrStop => true
  | .rdFrame i => p.fitsOff i
  | .rdPay i k => p.fitsOff i && p.fitsOff k
  | .rdOut k => p.fitsOff k

end Sys2Proof
end

