-- ==== Sys2Proof/Decode.lean ====
section
/-! DEFINITION. From the selecting wires to an operation and back (30_encoding.md R100 to R106). PCMDF
has no single instruction space: a command is selected by the value written to CMD, a small step by
PHASE and a comparison, a minor-frame operation by the two bits DSEL or ESEL, a field operation by its
place in the minor-frame decode, a read-out by its port. `Selector` is one of these with the operand
wires that go with it. -/

namespace Sys2Proof

/-- The stored fields of a frame as the MFU's encode side sees them (10_state.md R24): a field whose
presence bit is 0 is not read. -/
structure FrameWires where
  /-- The timestamp with its presence bit. -/
  ts : Option TS
  hdr : U16
  sync : U32
  sfid : U16
  payload : Bytes
  deriving DecidableEq, Repr

/-- What selects an operation, with its operand wires. -/
inductive Selector where
  /-- The value written to CMD (R103). -/
  | command (written : Nat)
  /-- PHASE, and whether an item is left: the fit test in D_FR, `EIDX < FRAME_COUNT` in E_FR (R104). -/
  | step (phase : Phase) (more : Bool)
  /-- `DSEL` with the region and the source (R101). -/
  | dsel (v : BitVec 2) (region : Bytes) (src : TsSrc)
  /-- The `n`-th part, from 0, of `MF.DEC.FR` (`x = false`) or `MF.DEC.FRS` (`x = true`) (R104). -/
  | part (x : Bool) (n : Nat) (region : Bytes) (src : TsSrc)
  /-- `ESEL` with the frame's fields and the source (R102). -/
  | esel (v : BitVec 2) (f : FrameWires) (src : TsSrc)
  /-- The port RD.FRAME (R106). -/
  | portFrame (i : Nat)
  /-- The port RD.PAY (R106). -/
  | portPay (i k : Nat)
  /-- The port RD.OUT (R106). -/
  | portOut (k : Nat)
  deriving DecidableEq, Repr

/-- Why no operation is selected. -/
inductive Reject where
  /-- PHASE is IDLE: no small step is next (10_state.md R46). -/
  | idlePhase
  /-- A minor-frame decode has no part of this number (R104). -/
  | noSuchPart
  /-- A number of bytes that is neither a command code nor a mode word. -/
  | noSuchItem
  deriving DecidableEq, Repr

/-- The command of a 3-bit code (R103, R207). -/
def decodeCommand (code : BitVec 3) : Instr :=
  match code.toNat with
  | 0 => .cmdNop
  | 1 => .cmdClear
  | 2 => .cmdDecode
  | 3 => .cmdEncode
  | 4 => .cmdAppend
  | 5 => .cmdReserved5
  | 6 => .cmdReserved6
  | _ => .cmdReserved7

/-- The small step that PHASE selects (R104). -/
def decodeStep (phase : Phase) (more : Bool) : Except Reject Instr :=
  match phase, more with
  | .idle, _ => .error .idlePhase
  | .dMode, _ => .ok .dpMode
  | .dTp, _ => .ok .dpDecTp
  | .dFre, _ => .ok .dpDecFr
  | .dFr, true => .ok .dpDecFrStep
  | .dFr, false => .ok .dpDecFrStop
  | .eHdr, _ => .ok .dpEncHdr
  | .eTp, _ => .ok .dpEncTp
  | .eFr, true => .ok .dpEncFrStep
  | .eFr, false => .ok .dpEncFrStop

/-- The minor-frame decode that DSEL selects: mask 0b10 match 0b10, mask 0b11 match 0b00 and 0b01
(R101). -/
def decodeDsel (v : BitVec 2) (region : Bytes) (src : TsSrc) : Instr :=
  if v.getLsbD 1 then .mfDecTp region
  else if v.getLsbD 0 then .mfDecFrs region src
  else .mfDecFr region src

/-- The field operations of a minor-frame decode in the order they run (R104; 40_minor_frame_decode.md
R127, R128). -/
def decodePart (x : Bool) (n : Nat) (region : Bytes) (src : TsSrc) : Except Reject Instr :=
  match x, n with
  | _, 0 => .ok (.fxTs region src)
  | _, 1 => .ok (.fxHdr region)
  | false, 2 => .ok (.fxPay region .afterHdr)
  | true, 2 => .ok (.fxSs region)
  | true, 3 => .ok (.fxPay region .afterSs)
  | _, _ => .error .noSuchPart

/-- The minor-frame encode that ESEL selects: mask 0b10 match 0b10, mask 0b11 match 0b00 and 0b01
(R102). -/
def decodeEsel (v : BitVec 2) (f : FrameWires) (src : TsSrc) : Instr :=
  if v.getLsbD 1 then .mfEncTp f.payload
  else if v.getLsbD 0 then .mfEncFrs f.ts f.hdr f.sync f.sfid f.payload src
  else .mfEncFr f.ts f.hdr f.payload src

/-- The operation the selecting wires select. Total; a selector that selects nothing is rejected by
name. Bits of a written command above bit 2 are ignored (10_state.md R34). -/
def decode : Selector → Except Reject Instr
  | .command written => .ok (decodeCommand (BitVec.ofNat 3 written))
  | .step phase more => decodeStep phase more
  | .dsel v region src => .ok (decodeDsel v region src)
  | .part x n region src => decodePart x n region src
  | .esel v f src => .ok (decodeEsel v f src)
  | .portFrame i => .ok (.rdFrame i)
  | .portPay i k => .ok (.rdPay i k)
  | .portOut k => .ok (.rdOut k)

/-- The throughput flag of a mode word: mask 0x00100000, bit 20 (R91, R100). -/
def modeWordTp (w : U32) : Bool := w.getLsbD tpBit

/-- Where the decode goes after the mode word: the throughput operations when bit 20 is 1, the framed
ones when it is 0 (R100; 42_data_packet_decode.md R161). -/
def decodeRoute (w : U32) : Phase := if modeWordTp w then .dTp else .dFre

/-- Where the encode goes after the mode word (R100; 43_data_packet_encode.md R182). -/
def encodeRoute (w : U32) : Phase := if modeWordTp w then .eTp else .eFr

/-- The value of a byte sequence, least significant byte first (00_scope.md R12). -/
def leNat : Bytes → Nat
  | [] => 0
  | b :: bs => b.toNat + 256 * leNat bs

/-- The low `n` bytes of a number, least significant first (00_scope.md R12). -/
def leBytes : Nat → Nat → Bytes
  | 0, _ => []
  | n + 1, v => BitVec.ofNat 8 v :: leBytes n (v / 256)

/-- The operation that raw bytes select where the machine takes bytes: one byte is a command code
written to CMD; four bytes are a mode word at packet offset 0, which `DP.MODE` reads; three bytes are
the low bytes of a mode word that has been read, whose bit 20 routes the decode (R91, R100, R103).
DESIGN CHOICE, log entry 13. -/
def decodeBytes (b : Bytes) : Except Reject Instr :=
  match b with
  | [c] => decode (.command c.toNat)
  | [b0, b1, b2] => decode (.step (decodeRoute (BitVec.ofNat 32 (leNat [b0, b1, b2]))) false)
  | [_, _, _, _] => decode (.step .dMode false)
  | _ => .error .noSuchItem

/-- The operation the decoder reads from an item of `nbits` bits whose bits are `w` (log entry 13). -/
def decodeTableWord (nbits w : Nat) : Option Instr :=
  (decodeBytes (leBytes (nbits / 8) w)).toOption

/-- The frame wires of a throughput frame: the fields that are not read carry zeros. -/
def FrameWires.ofPayload (payload : Bytes) : FrameWires where
  ts := none
  hdr := 0#16
  sync := 0#32
  sfid := 0#16
  payload := payload

/-- The selecting wires of an operation (R101 to R104, R106); where a rule ignores a wire, the encoder
puts 0 on it. -/
def encode : Instr → Selector
  | .cmdNop => .command 0
  | .cmdClear => .command 1
  | .cmdDecode => .command 2
  | .cmdEncode => .command 3
  | .cmdAppend => .command 4
  | .cmdReserved5 => .command 5
  | .cmdReserved6 => .command 6
  | .cmdReserved7 => .command 7
  | .dpMode => .step .dMode false
  | .dpDecTp => .step .dTp false
  | .dpDecFr => .step .dFre false
  | .dpDecFrStep => .step .dFr true
  | .dpDecFrStop => .step .dFr false
  | .mfDecTp region => .dsel 0b10#2 region .rtc
  | .mfDecFr region src => .dsel 0b00#2 region src
  | .mfDecFrs region src => .dsel 0b01#2 region src
  | .fxTs region src => .part false 0 region src
  | .fxHdr region => .part false 1 region .rtc
  | .fxSs region => .part true 2 region .rtc
  | .fxPay region .afterHdr => .part false 2 region .rtc
  | .fxPay region .afterSs => .part true 3 region .rtc
  | .mfEncTp payload => .esel 0b10#2 (FrameWires.ofPayload payload) .rtc
  | .mfEncFr ts hdr payload src => .esel 0b00#2 ⟨ts, hdr, 0#32, 0#16, payload⟩ src
  | .mfEncFrs ts hdr sync sfid payload src => .esel 0b01#2 ⟨ts, hdr, sync, sfid, payload⟩ src
  | .dpEncHdr => .step .eHdr false
  | .dpEncTp => .step .eTp false
  | .dpEncFrStep => .step .eFr true
  | .dpEncFrStop => .step .eFr false
  | .rdFrame i => .portFrame i
  | .rdPay i k => .portPay i k
  | .rdOut k => .portOut k

end Sys2Proof
end

