-- ==== Sys2Proof/Machine/State.lean ====
section
/-! DEFINITION. The state of PCMDF (10_state.md), the ways the model stops, and the state after reset. -/

namespace Sys2Proof.Machine

/-- The fault kinds of 60_exceptions.md R220. -/
inductive ErrKind where
  | malformedBuffer
  | configurationError
  | offsetDecodeError
  | capacityError
  deriving DecidableEq, Repr, Inhabited

/-- The refusal codes of 10_state.md R40 and 60_exceptions.md R233. -/
inductive RefCode where
  | badState
  | locked
  | invariant
  | capacity
  | badCmd
  deriving DecidableEq, Repr, Inhabited

/-- `STATE` (10_state.md R35, R48). -/
inductive Status where
  | empty
  | ready
  | busy
  | faulted
  deriving DecidableEq, Repr, Inhabited

/-- `RET`: the state an encode returns to (10_state.md R46). -/
inductive Ret where
  | empty
  | ready
  deriving DecidableEq, Repr, Inhabited

/-- A minor frame (10_state.md R21), in a form in which only the well-formed ones exist (R22): a
throughput frame has a payload alone, a framed frame always has a header and has the sync word and SFID
together or neither. The five fields of R21 are the functions `MinorFrame.mode` and so on of
Machine/Flags.lean. -/
inductive MinorFrame where
  /-- A throughput frame. -/
  | tp (payload : Bytes)
  /-- A framed frame; its timestamp may be absent (R22, 90_conflicts.md C2). -/
  | fr (ts : Option TS) (hdr : U16) (ss : Option (U32 × U16)) (payload : Bytes)
  deriving DecidableEq, Repr

/-- A byte memory: (address, byte) pairs with strictly rising addresses. An address that is not listed
holds no byte of the run: nothing has written it since reset (93_implementation_defined.md U1 to U3; log
entry 4). -/
abbrev Memory := List Host.Cell

/-- The canonical form of a memory: addresses strictly rising. -/
def Memory.wf : Memory → Bool
  | [] => true
  | [_] => true
  | c :: d :: m => decide (c.1 < d.1) && Memory.wf (d :: m)

/-- What the host does next (44_host_commands.md, 60_exceptions.md R245). The host's actions stand in
`State.host`, oldest first; each lands between two small steps (log entry 3). -/
inductive HostOp where
  /-- The host does nothing and the sequencer takes its step, if one is enabled (R271). -/
  | tick
  /-- Write the register of this number (10_state.md R28); register 3 starts a command. -/
  | write (reg : Nat) (value : Nat)
  /-- Read the register of this number. -/
  | read (reg : Nat)
  /-- Write a byte of IBUF (10_state.md R44). -/
  | writeIbuf (offset : Nat) (byte : Byte)
  /-- Write a byte of the staging payload (10_state.md R42). -/
  | writeApay (index : Nat) (byte : Byte)
  /-- Read the port RD.FRAME. -/
  | rdFrame (i : Nat)
  /-- Read the port RD.PAY. -/
  | rdPay (i k : Nat)
  /-- Read the port RD.OUT. -/
  | rdOut (k : Nat)
  /-- The reset input `rst` is sampled high (70_reset_and_hazards.md R250). -/
  | reset
  deriving DecidableEq, Repr

/-- What RD.FRAME shows of a valid frame (44_host_commands.md R204). A field whose presence bit is 0, and
the header of a throughput frame, are unspecified there and do not exist here (93 U4). -/
structure FrameView where
  mode : Mode
  ts : Option TS
  hdr : Option U16
  ss : Option (U32 × U16)
  plen : Nat
  deriving DecidableEq, Repr

/-- What the last operation that returns a result answered. The model's own (log entry 9). -/
inductive Answer where
  /-- Nothing has answered since reset. -/
  | none
  /-- A register read. -/
  | reg (value : Nat)
  /-- RD.FRAME; `none` is `rd_valid = 0`. -/
  | frameView (f : Option FrameView)
  /-- RD.PAY or RD.OUT; `none` is `rd_valid = 0`. -/
  | byte (b : Option Byte)
  /-- `FX.TS`: the `ts` field of the frame being built. -/
  | ts (t : TS)
  /-- `FX.HDR`: its `hdr` field. -/
  | hdr (h : U16)
  /-- `FX.SS`: its `ss` field. -/
  | ss (sync : U32) (sfid : U16)
  /-- `FX.PAY`: its payload. -/
  | payload (b : Bytes)
  /-- A minor-frame decode: `ok(f)` (40_minor_frame_decode.md R125). -/
  | frame (f : MinorFrame)
  /-- A minor-frame encode: `ok(b)` (41_minor_frame_encode.md R140). -/
  | bytes (b : Bytes)
  /-- The MFU raised a fault kind: `fail(k)` (R125, R140). -/
  | fail (k : ErrKind)
  deriving DecidableEq, Repr

/-- The state of PCMDF. FRAME_COUNT is the length of `frames` (10_state.md R38) and STATUS is computed
(R35), so neither is stored. -/
structure State where
  /-- The implementation parameters: an argument of every step, written by none (R50; log entry 1). -/
  params : Params
  /-- `CTRL`, register 0 (R29). -/
  ctrl : U32
  /-- `FPS`, register 1 (R32). -/
  fps : Nat
  /-- `FPS_SET` (R32). -/
  fpsSet : Bool
  /-- `BUF_LEN`, register 2 (R33). -/
  bufLen : Nat
  /-- `STATE` (R35, R48). -/
  status : Status
  /-- `MODE_WORD`, register 5 (R37). -/
  modeWord : U32
  /-- `OFFSET`, register 6 (R30). -/
  offset : Nat
  /-- `ERR_KIND`, register 8 (R39). -/
  errKind : Option ErrKind
  /-- `ERR_CAUSE`, register 9 (R39). -/
  errCause : Option ErrKind
  /-- `ERR_OFFSET`, register 10 (R39). -/
  errOffset : Nat
  /-- `ERR_LEN`, register 11 (R39). -/
  errLen : Nat
  /-- `ERR_INDEX`, register 12 (R39). -/
  errIndex : Nat
  /-- `REF_CODE`, register 13 (R40). -/
  refCode : Option RefCode
  /-- `OUT_LEN`, register 14 (R41). -/
  outLen : Nat
  /-- `OUT_VALID` (R41). -/
  outValid : Bool
  /-- `A_FLAGS`, register 16 (R42). -/
  aFlags : BitVec 3
  /-- `A_TS`, register 17 (R42). -/
  aTs : TS
  /-- `A_HDR`, register 18 (R42). -/
  aHdr : U16
  /-- `A_SYNC`, register 19 (R42). -/
  aSync : U32
  /-- `A_SFID`, register 20 (R42). -/
  aSfid : U16
  /-- `A_PLEN`, register 21 (R42). -/
  aPlen : Nat
  /-- `IBUF` (R44). -/
  ibuf : Memory
  /-- `OBUF` (R45). -/
  obuf : Memory
  /-- `A_PAY` (R42). -/
  apay : Memory
  /-- The frame store (R43). -/
  frames : List MinorFrame
  /-- The latch `S` (R36). -/
  latchS : TsSrc
  /-- The latch `L` (R36). -/
  latchL : Nat
  /-- The latch `X` (R36). -/
  latchX : Bool
  /-- The latch `P` (R36). -/
  latchP : Nat
  /-- The latch `PV` (R36). -/
  latchPV : Bool
  /-- `PHASE` (R46). -/
  phase : Phase
  /-- `EIDX` (R46). -/
  eidx : Nat
  /-- `RET` (R46). -/
  ret : Ret
  /-- How many times `rst` was applied; the free values are applied to it (log entry 6). -/
  resets : Nat
  /-- The host's coming actions, oldest first (log entry 3). -/
  host : List HostOp
  /-- What the last operation that returns a result answered (log entry 9). -/
  answer : Answer
  deriving DecidableEq, Repr

/-- Why a step stops. None is a fault of the spec: those are next states (60_exceptions.md R224, R225). -/
inductive Fault where
  /-- A read of IBUF at an offset at or above BUF_CAP, which does not exist (10_state.md R44). Raised by
  the decode steps in a state with `L > BUF_CAP`, which no run reaches. Safe (log entry 16). -/
  | ibufRange
  /-- A read of OBUF at an address at or above OUT_CAP (10_state.md R45). Raised by RD.OUT in a state with
  `OUT_LEN > OUT_CAP`, which no run reaches. Safe (log entry 16). -/
  | obufRange
  /-- A read of A_PAY at an index at or above PAY_CAP (10_state.md R42). Raised by CMD.APPEND in a state
  with `A_PLEN > PAY_CAP`, which no run reaches. Safe (log entry 16). -/
  | apayRange
  /-- A read or write of a register number above 21 (10_state.md R28). Raised by a host action. Safe
  (log entry 16). -/
  | noRegister (reg : Nat)
  /-- DP.ENC.TP with no `frames[0]` (43_data_packet_encode.md R183). Raised only in states no run
  reaches. Safe (log entry 17). -/
  | noFrame
  deriving DecidableEq, Repr

/-- Why a step has no meaning. -/
inductive Refusal where
  /-- The instruction of this mnemonic has no meaning in the model. Safe. -/
  | notModelled (mnemonic : String)
  /-- A small step asked for outside its enabling condition (30_encoding.md R104). Raised by the DP steps;
  the sequencer never selects such a step. Safe (log entry 11). -/
  | notEnabled (mnemonic : String)
  /-- The selecting wires select no operation. Raised by the step; no fetch gives such wires. Safe (log
  entry 13). -/
  | undecodable (why : Reject)
  deriving DecidableEq, Repr

/-- The state after the reset input was applied for the `n`-th time on an instance with these parameters:
10_state.md R49. Unlisted bytes are unspecified (93 U1 to U3; log entry 4), and so is A_TS (log entry 5). -/
def State.resetWith (p : Params) (n : Nat) : State where
  params := p
  ctrl := 0#32
  fps := 0
  fpsSet := false
  bufLen := 0
  status := .empty
  modeWord := 0#32
  offset := 0
  errKind := none
  errCause := none
  errOffset := 0
  errLen := 0
  errIndex := 0
  refCode := none
  outLen := 0
  outValid := false
  aFlags := 0#3
  aTs := TS.ofBits (Config.aTsFree p.tsW n)
  aHdr := 0#16
  aSync := 0#32
  aSfid := 0#16
  aPlen := 0
  ibuf := []
  obuf := []
  apay := []
  frames := []
  latchS := .rtc
  latchL := 0
  latchX := false
  latchP := 0
  latchPV := false
  phase := .idle
  eidx := 0
  ret := .empty
  resets := n
  host := []
  answer := .none

/-- The machine right after reset (10_state.md R49, 70_reset_and_hazards.md R251), with the parameters of
95_test_vectors.md (log entry 1) and no host action coming (log entry 3). -/
def State.reset : State := State.resetWith Params.vectors 0

end Sys2Proof.Machine
end

