-- ==== Sys2Proof/Machine/Operands.lean ====
section
/-! DEFINITION. The operand forms: slices, field assembly in both byte orders, the sync assembly, record
sizes (00_scope.md R11, R12; 20_memory.md R63, R64; 30_encoding.md R98, R99). -/

namespace Sys2Proof.Machine

/-- `b[i:j)` (00_scope.md R11). -/
def slice (b : Bytes) (i j : Nat) : Bytes := (b.take j).drop i

/-- `b[i:)` (00_scope.md R11). -/
def sliceFrom (b : Bytes) (i : Nat) : Bytes := b.drop i

/-- `LE16` of a 2-byte sequence (00_scope.md R12). -/
def le16 (b : Bytes) : U16 := BitVec.ofNat 16 (leNat b)

/-- `LE32` of a 4-byte sequence (00_scope.md R12). -/
def le32 (b : Bytes) : U32 := BitVec.ofNat 32 (leNat b)

/-- `LE16enc` (00_scope.md R12). -/
def le16Enc (v : U16) : Bytes := [v.extractLsb' 0 8, v.extractLsb' 8 8]

/-- `LE32enc` (00_scope.md R12). -/
def le32Enc (v : U32) : Bytes :=
  [v.extractLsb' 0 8, v.extractLsb' 8 8, v.extractLsb' 16 8, v.extractLsb' 24 8]

/-- `BE16enc` (00_scope.md R12). -/
def be16Enc (v : U16) : Bytes := [v.extractLsb' 8 8, v.extractLsb' 0 8]

/-- `BE32enc` (00_scope.md R12). -/
def be32Enc (v : U32) : Bytes :=
  [v.extractLsb' 24 8, v.extractLsb' 16 8, v.extractLsb' 8 8, v.extractLsb' 0 8]

/-- `bswap16` (00_scope.md R12). -/
def bswap16 (v : U16) : U16 := v.extractLsb' 0 8 ++ v.extractLsb' 8 8

/-- The sync assembly: `zext_32(lsw) | (zext_32(msw) << 16)` (40_minor_frame_decode.md R123). -/
def syncWord (msw lsw : U16) : U32 := lsw.setWidth 32 ||| (msw.setWidth 32 <<< 16)

/-- The upper half `w[31:16]` of a sync word. -/
def syncHigh (w : U32) : U16 := w.extractLsb' 16 16

/-- The lower half `w[15:0]` of a sync word. -/
def syncLow (w : U32) : U16 := w.extractLsb' 0 16

/-- The record size `rs = P + 10` (30_encoding.md R98). -/
def recSize (p : Nat) : Nat := p + recHdrBytes

/-- A record's length with its pad byte, which follows iff the length is odd (20_memory.md R68). For
`rs` this is the stride (42_data_packet_decode.md R163). -/
def padded (len : Nat) : Nat := len + len % 2

/-- The pad after a record of this length: one zero byte iff it is odd (20_memory.md R68). -/
def padBytes (len : Nat) : Bytes := if len % 2 = 1 then [padByte] else []

/-- The record size of the running decode, from the latch `P` (42_data_packet_decode.md R163). -/
def State.rs (s : State) : Nat := recSize s.latchP

/-- The stride of the running decode (42_data_packet_decode.md R163). -/
def State.stride (s : State) : Nat := padded s.rs

/-- The fit test at the cursor: `OFFSET + rs <= L`, over the naturals (42_data_packet_decode.md R164). -/
def State.fits (s : State) : Bool := decide (s.offset + s.rs ≤ s.latchL)

/-- A written value as an OFF_W-bit register stores it: upper bits are ignored (10_state.md R28, 93 V3;
log entry 7). -/
def State.truncOff (s : State) (v : Nat) : Nat := v % 2 ^ s.params.offW

/-- A written value as the TS_W-bit register A_TS stores it (10_state.md R42, 93 V3; log entry 7). -/
def State.truncTs (s : State) (v : Nat) : TS := ⟨v % 2 ^ s.params.tsW⟩

/-- The timestamp codec of an instance whose timestamps have `w` bits: what it decodes is carried in `w` bits,
and it is handed `w` bits to encode (00_scope.md R9, 60_exceptions.md R240; log entry 2). -/
def tsCodec (w : Nat) : Codec where
  dec src b := (Config.tsDec w src b).map TS.ofBits
  enc src t := Config.tsEnc w src (t.bits w)

/-- The codec of this instance (60_exceptions.md R240). -/
def State.codec (s : State) : Codec := tsCodec s.params.tsW

end Sys2Proof.Machine
end

