-- ==== Sys2Proof/Machine/Flags.lean ====
section
/-! DEFINITION. Every flag of PCMDF (10_state.md R47): the fields and presence bits of a frame, the
selectors DSEL and ESEL, the CTRL and A_FLAGS bits, the STATUS word, the output pins. -/

namespace Sys2Proof.Machine

/-! The five fields of a minor frame (10_state.md R21). -/

def MinorFrame.mode : MinorFrame → Mode
  | .tp _ => .tp
  | .fr _ _ _ _ => .fr

def MinorFrame.ts : MinorFrame → Option TS
  | .tp _ => none
  | .fr t _ _ _ => t

def MinorFrame.hdr : MinorFrame → Option U16
  | .tp _ => none
  | .fr _ h _ _ => some h

def MinorFrame.ss : MinorFrame → Option (U32 × U16)
  | .tp _ => none
  | .fr _ _ ss _ => ss

def MinorFrame.payload : MinorFrame → Bytes
  | .tp b => b
  | .fr _ _ _ b => b

/-- `plen`, the payload length (10_state.md R24). -/
def MinorFrame.plen (f : MinorFrame) : Nat := f.payload.length

/-- `ts_present` (10_state.md R24, R47). -/
def MinorFrame.tsPresent (f : MinorFrame) : Bool := f.ts.isSome

/-- `ss_present` (10_state.md R24, R47). -/
def MinorFrame.ssPresent (f : MinorFrame) : Bool := f.ss.isSome

/-- The mode bit as a flag: 1 is TP (10_state.md R24). -/
def modeIsTp : Mode → Bool
  | .fr => false
  | .tp => true

/-- `DSEL = {TP, X}` (30_encoding.md R101). -/
def dsel (tp x : Bool) : BitVec 2 := BitVec.ofBool tp ++ BitVec.ofBool x

/-- `ESEL = {f.mode = TP, f.ss is some}` (30_encoding.md R102). -/
def esel (f : MinorFrame) : BitVec 2 := BitVec.ofBool (modeIsTp f.mode) ++ BitVec.ofBool f.ssPresent

/-- `MODE_WORD[20]` (10_state.md R35, R37). -/
def State.tp (s : State) : Bool := modeWordTp s.modeWord

/-- The packet's mode (10_state.md R23). -/
def State.mode (s : State) : Mode := if s.tp then .tp else .fr

/-- `CTRL.EXTRACT`, bit 0 (10_state.md R29). -/
def State.extract (s : State) : Bool := s.ctrl.getLsbD 0

/-- `CTRL.TS_SRC`, bit 1 (10_state.md R29). -/
def State.tsSrc (s : State) : TsSrc := TsSrc.ofBit (s.ctrl.getLsbD 1)

/-- A value written to CTRL as it is stored: bits 31:2 are reserved and ignored (10_state.md R29). -/
def ctrlStored (v : Nat) : U32 := BitVec.ofNat 32 v &&& 3#32

/-- `A_TP`, bit 0 of A_FLAGS (10_state.md R42). -/
def State.aTp (s : State) : Bool := s.aFlags.getLsbD 0

/-- `A_TS_PRESENT`, bit 1 of A_FLAGS (10_state.md R42). -/
def State.aTsPresent (s : State) : Bool := s.aFlags.getLsbD 1

/-- `A_SS_PRESENT`, bit 2 of A_FLAGS (10_state.md R42). -/
def State.aSsPresent (s : State) : Bool := s.aFlags.getLsbD 2

/-- `ERR`: 1 iff `ERR_KIND != 0` (10_state.md R35). -/
def State.err (s : State) : Bool := s.errKind.isSome

/-- `REFUSED`: 1 iff `REF_CODE != 0` (10_state.md R35). -/
def State.refused (s : State) : Bool := s.refCode.isSome

/-- `FRAME_COUNT`: always `len(frames)` (10_state.md R38). -/
def State.frameCount (s : State) : Nat := s.frames.length

/-- The output pin `busy` (60_exceptions.md R236). -/
def State.busyPin (s : State) : Bool := decide (s.status = .busy)

/-- The output pin `err` (60_exceptions.md R236). -/
def State.errPin (s : State) : Bool := s.err

/-- The code of STATE, STATUS bits 1:0 (10_state.md R35). -/
def Status.code : Status → BitVec 2
  | .empty => 0#2
  | .ready => 1#2
  | .busy => 2#2
  | .faulted => 3#2

/-- The code of a fault kind in ERR_KIND and ERR_CAUSE (60_exceptions.md R220). -/
def ErrKind.code : ErrKind → Nat
  | .malformedBuffer => 1
  | .configurationError => 2
  | .offsetDecodeError => 3
  | .capacityError => 4

/-- ERR_KIND or ERR_CAUSE as read: 0 for none (10_state.md R39). -/
def errCode : Option ErrKind → Nat
  | none => 0
  | some k => k.code

/-- The code of a refusal (10_state.md R40). -/
def RefCode.code : RefCode → Nat
  | .badState => 1
  | .locked => 2
  | .invariant => 3
  | .capacity => 4
  | .badCmd => 5

/-- REF_CODE as read: 0 for none (10_state.md R40). -/
def refCodeOf : Option RefCode → Nat
  | none => 0
  | some r => r.code

/-- The STATUS word (10_state.md R35): from bit 31 down, 23 zero bits, EXTRACT_L, TS_SRC_L, TP,
OUT_VALID, FPS_SET, REFUSED, ERR, and the two bits of STATE. -/
def State.statusWord (s : State) : U32 :=
  0#23 ++ BitVec.ofBool s.latchX ++ BitVec.ofBool s.latchS.bit ++ BitVec.ofBool s.tp
    ++ BitVec.ofBool s.outValid ++ BitVec.ofBool s.fpsSet ++ BitVec.ofBool s.refused
    ++ BitVec.ofBool s.err ++ s.status.code

/-- The state an encode returns to (10_state.md R46). -/
def Ret.status : Ret → Status
  | .empty => .empty
  | .ready => .ready

end Sys2Proof.Machine
end

