-- ==== Sys2Proof/Machine/Ops.lean ====
section
/-! DEFINITION. The named operations over memory and registers: reading and writing the buffers, the
refusal (60_exceptions.md R232), taking a fault (R224, R225) and returning from one (44_host_commands.md
R197), the latch points (10_state.md R36), the commands' start steps. -/

namespace Sys2Proof.Machine

/-- The outcome of a step of PCMDF. -/
abbrev Result := Host.Outcome State Fault Refusal

/-! Byte memories. -/

/-- The byte listed at an address, if any. -/
def Memory.get : Memory → Nat → Option Byte
  | [], _ => none
  | (k, b) :: m, a => if k = a then some b else Memory.get m a

/-- Write one byte, keeping the addresses strictly rising. -/
def Memory.set : Memory → Nat → Byte → Memory
  | [], a, b => [(a, b)]
  | (k, c) :: m, a, b =>
    if a < k then (a, b) :: (k, c) :: m
    else if a = k then (a, b) :: m
    else (k, c) :: Memory.set m a b

/-- Write a byte sequence to consecutive rising addresses (20_memory.md R70). -/
def Memory.setBytes (m : Memory) (a : Nat) : Bytes → Memory
  | [] => m
  | b :: bs => Memory.setBytes (Memory.set m a b) (a + 1) bs

/-- `IBUF[a]`: the last byte written there, or the unspecified byte of 93 U1 (log entry 4). -/
def State.ibufByte (s : State) (a : Nat) : Byte :=
  (Memory.get s.ibuf a).getD (Config.ibufFree s.resets a)

/-- `OBUF[a]`: the last byte written there, or the unspecified byte of 93 U2 (log entry 4). -/
def State.obufByte (s : State) (a : Nat) : Byte :=
  (Memory.get s.obuf a).getD (Config.obufFree s.resets a)

/-- `A_PAY[a]`: the last byte written there, or the unspecified byte of 93 U3 (log entry 4). -/
def State.apayByte (s : State) (a : Nat) : Byte :=
  (Memory.get s.apay a).getD (Config.apayFree s.resets a)

/-- `IBUF[a : a+n)`, whether or not it exists. -/
def State.ibufSlice (s : State) (a n : Nat) : Bytes := (List.range' a n).map s.ibufByte

/-- The valid input buffer `IBUF[0 : L)` of the running decode (42_data_packet_decode.md R155). -/
def State.inputBuffer (s : State) : Bytes := s.ibufSlice 0 s.latchL

/-- `OBUF[a : a+n)`, whether or not it exists. -/
def State.obufSlice (s : State) (a n : Nat) : Bytes := (List.range' a n).map s.obufByte

/-- `MemRead(a, n)` (00_scope.md R13): the bytes `IBUF[a : a+n)`; none where an address does not exist
(log entry 16). The callers test against `L` first (20_memory.md R62). -/
def State.memRead (s : State) (a n : Nat) : Option Bytes :=
  if a + n ≤ s.params.bufCap then some (s.ibufSlice a n) else none

/-- `MemWrite(a, n, v)` (00_scope.md R13). The callers test against OUT_CAP first (43_data_packet_encode.md
R183, R184), or write the four bytes that OUT_CAP always holds (R182). -/
def State.memWrite (s : State) (a : Nat) (v : Bytes) : State :=
  { s with obuf := Memory.setBytes s.obuf a v }

/-- `A_PAY[0 : A_PLEN)` (44_host_commands.md R200); none where an index does not exist (log entry 16). -/
def State.stagedPayload (s : State) : Option Bytes :=
  if s.aPlen ≤ s.params.payCap then some ((List.range' 0 s.aPlen).map s.apayByte) else none

/-! Refusals. -/

/-- A refused host action: REF_CODE keeps the first code, and nothing else changes (60_exceptions.md
R232). -/
def State.refuse (s : State) (code : RefCode) : State :=
  { s with refCode := match s.refCode with
      | none => some code
      | some r => some r }

/-! Taking a fault. -/

/-- The new value of an error register when a fault is recorded: the first fault wins (60_exceptions.md
R226). -/
def State.onFirstFault {α : Type} (s : State) (new old : α) : α :=
  match s.errKind with
  | none => new
  | some _ => old

/-- Entry of a decode fault (60_exceptions.md R224). MODE_WORD is not written: when DP.MODE itself faults, the
word the host wrote in EMPTY stays. R224 says both "kept" and "else 0" there, so this is the model's choice
(DESIGN CHOICE, log entry 23). -/
def State.takeDecodeFault (s : State) (kind : ErrKind) (cause : Option ErrKind) : State :=
  { s with
    errKind := s.onFirstFault (some kind) s.errKind
    errCause := s.onFirstFault cause s.errCause
    errOffset := s.onFirstFault s.offset s.errOffset
    errLen := s.onFirstFault s.latchL s.errLen
    errIndex := s.onFirstFault 0 s.errIndex
    frames := []
    outValid := false
    outLen := 0
    status := .faulted
    phase := .idle }

/-- Entry of an encode fault on the frame of this index (60_exceptions.md R225). -/
def State.takeEncodeFault (s : State) (kind : ErrKind) (index : Nat) : State :=
  { s with
    errKind := s.onFirstFault (some kind) s.errKind
    errCause := s.onFirstFault none s.errCause
    errOffset := s.onFirstFault 0 s.errOffset
    errLen := s.onFirstFault 0 s.errLen
    errIndex := s.onFirstFault index s.errIndex
    outValid := false
    outLen := 0
    status := s.ret.status
    phase := .idle }

/-- Return from a fault and construction of a new empty packet: what CMD.CLEAR does (44_host_commands.md
R197, 60_exceptions.md R230). -/
def State.clear (s : State) : State :=
  { s with
    frames := []
    modeWord := 0#32
    offset := 0
    errKind := none
    errCause := none
    errOffset := 0
    errLen := 0
    errIndex := 0
    refCode := none
    outLen := 0
    outValid := false
    latchS := s.tsSrc
    status := .empty }

/-! Starting and ending a command. -/

/-- Start of a decode (42_data_packet_decode.md R160, 10_state.md R36). -/
def State.startDecode (s : State) : State :=
  { s with
    latchL := s.bufLen
    latchX := s.extract
    latchP := s.fps
    latchPV := s.fpsSet
    offset := 0
    outValid := false
    outLen := 0
    status := .busy
    phase := .dMode }

/-- RET as an encode remembers STATE (43_data_packet_encode.md R181). -/
def Status.toRet : Status → Ret
  | .empty => .empty
  | .ready => .ready
  | .busy => .ready
  | .faulted => .ready

/-- Start of an encode (43_data_packet_encode.md R181). It is accepted in EMPTY and READY alone, so RET
holds the state it is accepted in. -/
def State.startEncode (s : State) : State :=
  { s with
    ret := s.status.toRet
    outValid := false
    outLen := 0
    eidx := 0
    status := .busy
    phase := .eHdr }

/-- A decode ends without fault (42_data_packet_decode.md R162, R166). -/
def State.endDecode (s : State) : State := { s with status := .ready, phase := .idle }

/-- An encode ends without fault (43_data_packet_encode.md R183, R185). -/
def State.endEncode (s : State) : State :=
  { s with outValid := true, status := s.ret.status, phase := .idle }

/-- Append a frame at the tail of the frame store (10_state.md R43). -/
def State.pushFrame (s : State) (f : MinorFrame) : State := { s with frames := s.frames ++ [f] }

/-- Show a result on the answer wires (log entry 9). -/
def State.showAnswer (s : State) (a : Answer) : State := { s with answer := a }

/-- The reset input is sampled high (70_reset_and_hazards.md R250, R251). The parameters and the host's
coming actions are not state of PCMDF and stay; the free values become fresh ones (log entry 6). -/
def State.applyReset (s : State) : State :=
  { State.resetWith s.params (s.resets + 1) with host := s.host }

end Sys2Proof.Machine
end

