-- ==== Sys2Proof/Machine/Commands.lean ====
section
/-! DEFINITION. The host commands (44_host_commands.md R195 to R203, R207). CMD.DECODE and CMD.ENCODE are
their start steps; the sequencer's small steps do the rest (00_scope.md R19). -/

namespace Sys2Proof.Machine

/-- `CMD.NOP` (R203). -/
def execCmdNop (s : State) : Result :=
  match s.status with
  | .busy => .next (s.refuse .locked)
  | .empty => .next s
  | .ready => .next s
  | .faulted => .next s

/-- `CMD.CLEAR` (R197). -/
def execCmdClear (s : State) : Result :=
  match s.status with
  | .busy => .next (s.refuse .locked)
  | .empty => .next s.clear
  | .ready => .next s.clear
  | .faulted => .next s.clear

/-- `CMD.DECODE` (R196, R198), its start step (42_data_packet_decode.md R160). -/
def execCmdDecode (s : State) : Result :=
  match s.status with
  | .busy => .next (s.refuse .locked)
  | .empty => .next s.startDecode
  | .ready => .next (s.refuse .badState)
  | .faulted => .next (s.refuse .badState)

/-- `CMD.ENCODE` (R196, R199), its start step (43_data_packet_encode.md R181): an EMPTY throughput packet
has no frame to emit and is refused. -/
def execCmdEncode (s : State) : Result :=
  match s.status with
  | .busy => .next (s.refuse .locked)
  | .empty => if s.tp then .next (s.refuse .badState) else .next s.startEncode
  | .ready => .next s.startEncode
  | .faulted => .next (s.refuse .badState)

/-- The frame that the staging registers describe, normalised to a well-formed one (R200). -/
def State.stagedFrame (s : State) (pay : Bytes) : MinorFrame :=
  if s.aTp then .tp pay
  else .fr (if s.aTsPresent then some s.aTs else none) s.aHdr
    (if s.aSsPresent then some (s.aSync, s.aSfid) else none) pay

/-- Checks (2) to (4) of CMD.APPEND, in their order (R202). -/
def State.appendRefusal (s : State) : Option RefCode :=
  if s.aTp ≠ s.tp then some .invariant
  else if s.tp = true ∧ 1 ≤ s.frameCount then some .invariant
  else if s.frameCount < s.params.frmCap then none
  else some .capacity

/-- The append itself, after the checks (R200). -/
def State.appendStaged (s : State) : Result :=
  match s.appendRefusal with
  | some r => .next (s.refuse r)
  | none =>
    match s.stagedPayload with
    | none => .fault .apayRange
    | some pay =>
      .next { s.pushFrame (s.stagedFrame pay) with
        outValid := false
        outLen := 0
        status := .ready }

/-- `CMD.APPEND` (R196, R200, R202). -/
def execCmdAppend (s : State) : Result :=
  match s.status with
  | .busy => .next (s.refuse .locked)
  | .empty => s.appendStaged
  | .ready => s.appendStaged
  | .faulted => .next (s.refuse .badState)

/-- A reserved command code: refused with BadCmd, with Locked while BUSY (R196, R207). -/
def State.refuseReserved (s : State) : State :=
  match s.status with
  | .busy => s.refuse .locked
  | .empty => s.refuse .badCmd
  | .ready => s.refuse .badCmd
  | .faulted => s.refuse .badCmd

/-- Reserved command code 5 (R207). -/
def execCmdReserved5 (s : State) : Result := .next s.refuseReserved

/-- Reserved command code 6 (R207). -/
def execCmdReserved6 (s : State) : Result := .next s.refuseReserved

/-- Reserved command code 7 (R207). -/
def execCmdReserved7 (s : State) : Result := .next s.refuseReserved

end Sys2Proof.Machine
end

