-- ==== Sys2Proof/Machine/FieldOps.lean ====
section
/-! DEFINITION. The field operations FX.TS, FX.HDR, FX.SS, FX.PAY (40_minor_frame_decode.md R120 to R124). -/

namespace Sys2Proof.Machine

/-- `FX.TS` (R120): the first eight bytes of the region through the timestamp codec; a short region or a
rejection by the codec raises MalformedBuffer (60_exceptions.md R242). -/
def fxTs (c : Codec) (region : Bytes) (src : TsSrc) : Except ErrKind TS :=
  if region.length < tsBytes then .error .malformedBuffer
  else match c.dec src (slice region 0 8) with
    | none => .error .malformedBuffer
    | some t => .ok t

/-- `FX.HDR` (R121): the little-endian header word at region bytes `[8,10)`. -/
def fxHdr (region : Bytes) : Except ErrKind U16 :=
  if region.length < recHdrBytes then .error .malformedBuffer
  else .ok (le16 (slice region 8 10))

/-- `FX.SS` (R122, R123): three little-endian 16-bit values at region bytes `[10,16)`, the first two
assembled most significant half first. -/
def fxSs (region : Bytes) : Except ErrKind (U32 × U16) :=
  if region.length < recHdrBytes + ssBytes then .error .malformedBuffer
  else .ok (syncWord (le16 (slice region 10 12)) (le16 (slice region 12 14)),
            le16 (slice region 14 16))

/-- `FX.PAY` (R124): the region from byte `c` on. -/
def fxPay (region : Bytes) (start : PayStart) : Bytes := sliceFrom region start.bytes

/-- The meaning of `FX.TS`: its answer is the `ts` field, or the fault kind it raises inside the MFU
(R120, R125). -/
def execFxTs (region : Bytes) (src : TsSrc) (s : State) : Result :=
  match fxTs s.codec region src with
  | .ok t => .next (s.showAnswer (.ts t))
  | .error k => .next (s.showAnswer (.fail k))

/-- The meaning of `FX.HDR` (R121). -/
def execFxHdr (region : Bytes) (s : State) : Result :=
  match fxHdr region with
  | .ok h => .next (s.showAnswer (.hdr h))
  | .error k => .next (s.showAnswer (.fail k))

/-- The meaning of `FX.SS` (R122). -/
def execFxSs (region : Bytes) (s : State) : Result :=
  match fxSs region with
  | .ok (w, f) => .next (s.showAnswer (.ss w f))
  | .error k => .next (s.showAnswer (.fail k))

/-- The meaning of `FX.PAY` (R124). -/
def execFxPay (region : Bytes) (start : PayStart) (s : State) : Result :=
  .next (s.showAnswer (.payload (fxPay region start)))

end Sys2Proof.Machine
end

