-- ==== Sys2Proof/Machine/MfDecode.lean ====
section
/-! DEFINITION. The minor-frame decode MF.DEC.TP, MF.DEC.FR, MF.DEC.FRS (40_minor_frame_decode.md R125 to
R128). -/

namespace Sys2Proof.Machine

/-- `MF.DEC.TP` (R126): the region verbatim; it cannot fail. -/
def mfDecTp (region : Bytes) : MinorFrame := .tp region

/-- `MF.DEC.FR` (R127): FX.TS, FX.HDR, FX.PAY at 10, in that order; a raise abandons the whole (R131). -/
def mfDecFr (c : Codec) (region : Bytes) (src : TsSrc) : Except ErrKind MinorFrame :=
  match fxTs c region src with
  | .error k => .error k
  | .ok t =>
    match fxHdr region with
    | .error k => .error k
    | .ok h => .ok (.fr (some t) h none (fxPay region .afterHdr))

/-- `MF.DEC.FRS` (R128): FX.TS, FX.HDR, FX.SS, FX.PAY at 16, in that order; a raise abandons the whole
(R131). -/
def mfDecFrs (c : Codec) (region : Bytes) (src : TsSrc) : Except ErrKind MinorFrame :=
  match fxTs c region src with
  | .error k => .error k
  | .ok t =>
    match fxHdr region with
    | .error k => .error k
    | .ok h =>
      match fxSs region with
      | .error k => .error k
      | .ok ss => .ok (.fr (some t) h (some ss) (fxPay region .afterSs))

/-- `MFU_decode` (R125): the operation that `DSEL = {tp, x}` selects (30_encoding.md R101). -/
def mfuDecode (c : Codec) (region : Bytes) (tp x : Bool) (src : TsSrc) : Except ErrKind MinorFrame :=
  if tp then .ok (mfDecTp region)
  else if x then mfDecFrs c region src
  else mfDecFr c region src

/-- The answer of a minor-frame decode: `ok(f)` or `fail(k)` (R125). -/
def frameAnswer : Except ErrKind MinorFrame → Answer
  | .ok f => .frame f
  | .error k => .fail k

/-- The meaning of `MF.DEC.TP` (R126). -/
def execMfDecTp (region : Bytes) (s : State) : Result :=
  .next (s.showAnswer (.frame (mfDecTp region)))

/-- The meaning of `MF.DEC.FR` (R127). -/
def execMfDecFr (region : Bytes) (src : TsSrc) (s : State) : Result :=
  .next (s.showAnswer (frameAnswer (mfDecFr s.codec region src)))

/-- The meaning of `MF.DEC.FRS` (R128). -/
def execMfDecFrs (region : Bytes) (src : TsSrc) (s : State) : Result :=
  .next (s.showAnswer (frameAnswer (mfDecFrs s.codec region src)))

end Sys2Proof.Machine
end

