-- ==== Sys2Proof/Machine/DpDecode.lean ====
section
/-! DEFINITION. The decode steps of the segmenter (42_data_packet_decode.md R161 to R167). Each runs where
its rule enables it and is refused elsewhere (30_encoding.md R104; log entry 11). -/

namespace Sys2Proof.Machine

/-- `DP.MODE` (R161): read the mode word and route on bit 20; a buffer shorter than four bytes is a
MalformedBuffer, not wrapped, and leaves MODE_WORD as it was (log entry 23). -/
def execDpMode (s : State) : Result :=
  if s.phase = .dMode then
    if s.latchL < modeWordBytes then .next (s.takeDecodeFault .malformedBuffer none)
    else match s.memRead 0 modeWordBytes with
      | none => .fault .ibufRange
      | some b =>
        .next { s with
          modeWord := le32 b
          offset := firstRecOffset
          phase := decodeRoute (le32 b) }
  else .refused (.notEnabled "DP.MODE")

/-- `DP.DEC.TP` (R162): the rest of the buffer is the one throughput frame. -/
def execDpDecTp (s : State) : Result :=
  if s.phase = .dTp then
    match s.memRead firstRecOffset (s.latchL - firstRecOffset) with
    | none => .fault .ibufRange
    | some b => .next ({ s with frames := [mfDecTp b], offset := s.latchL }).endDecode
  else .refused (.notEnabled "DP.DEC.TP")

/-- `DP.DEC.FR` (R163): a framed decode with FPS never written is a ConfigurationError, not wrapped. The
record size and the stride are functions of the latch `P`. -/
def execDpDecFr (s : State) : Result :=
  if s.phase = .dFre then
    if s.latchPV then .next { s with phase := .dFr }
    else .next (s.takeDecodeFault .configurationError none)
  else .refused (.notEnabled "DP.DEC.FR")

/-- One record with a given codec (R165, R167): decode it, append the frame and advance by the stride, or
wrap the failure in an OffsetDecodeError. -/
def decodeRecord (c : Codec) (s : State) : Result :=
  match s.memRead s.offset s.rs with
  | none => .fault .ibufRange
  | some region =>
    match mfuDecode c region false s.latchX s.latchS with
    | .error k => .next (s.takeDecodeFault .offsetDecodeError (some k))
    | .ok f => .next { s.pushFrame f with offset := s.offset + s.stride }

/-- `DP.DEC.FR.STEP` (R165), enabled in D_FR while a record fits. -/
def execDpDecFrStep (s : State) : Result :=
  if s.phase = .dFr ∧ s.fits = true then decodeRecord s.codec s
  else .refused (.notEnabled "DP.DEC.FR.STEP")

/-- `DP.DEC.FR.STOP` (R166), enabled in D_FR when no record fits: the tail is dropped without a flag. -/
def execDpDecFrStop (s : State) : Result :=
  if s.phase = .dFr ∧ s.fits = false then .next s.endDecode
  else .refused (.notEnabled "DP.DEC.FR.STOP")

end Sys2Proof.Machine
end

