-- ==== Sys2Proof/Machine/MfEncode.lean ====
section
/-! DEFINITION. The minor-frame encode MF.ENC.TP, MF.ENC.FR, MF.ENC.FRS (41_minor_frame_encode.md R140 to
R143). -/

namespace Sys2Proof.Machine

/-- `MF.ENC.TP` (R141): the payload unchanged. -/
def mfEncTp (payload : Bytes) : Bytes := payload

/-- `MF.ENC.FR` (R142): the eight timestamp bytes, the header little-endian, the payload; a missing
timestamp is a ConfigurationError. -/
def mfEncFr (c : Codec) (ts : Option TS) (hdr : U16) (payload : Bytes) (src : TsSrc) :
    Except ErrKind Bytes :=
  match ts with
  | none => .error .configurationError
  | some t => .ok ((c.enc src t).toList ++ le16Enc hdr ++ payload)

/-- `MF.ENC.FRS` (R143): as `MF.ENC.FR` with the sync word and the SFID big-endian before the payload
(20_memory.md R64, 92_eei_decisions.md D28). -/
def mfEncFrs (c : Codec) (ts : Option TS) (hdr : U16) (sync : U32) (sfid : U16) (payload : Bytes)
    (src : TsSrc) : Except ErrKind Bytes :=
  match ts with
  | none => .error .configurationError
  | some t => .ok ((c.enc src t).toList ++ le16Enc hdr ++ be32Enc sync ++ be16Enc sfid ++ payload)

/-- `MFU_encode` (R140): the operation that ESEL selects (30_encoding.md R102). -/
def mfuEncode (c : Codec) (f : MinorFrame) (src : TsSrc) : Except ErrKind Bytes :=
  match f with
  | .tp payload => .ok (mfEncTp payload)
  | .fr ts hdr none payload => mfEncFr c ts hdr payload src
  | .fr ts hdr (some (sync, sfid)) payload => mfEncFrs c ts hdr sync sfid payload src

/-- The answer of a minor-frame encode: `ok(b)` or `fail(k)` (R140). -/
def bytesAnswer : Except ErrKind Bytes → Answer
  | .ok b => .bytes b
  | .error k => .fail k

/-- The meaning of `MF.ENC.TP` (R141). -/
def execMfEncTp (payload : Bytes) (s : State) : Result :=
  .next (s.showAnswer (.bytes (mfEncTp payload)))

/-- The meaning of `MF.ENC.FR` (R142). -/
def execMfEncFr (ts : Option TS) (hdr : U16) (payload : Bytes) (src : TsSrc) (s : State) : Result :=
  .next (s.showAnswer (bytesAnswer (mfEncFr s.codec ts hdr payload src)))

/-- The meaning of `MF.ENC.FRS` (R143). -/
def execMfEncFrs (ts : Option TS) (hdr : U16) (sync : U32) (sfid : U16) (payload : Bytes)
    (src : TsSrc) (s : State) : Result :=
  .next (s.showAnswer (bytesAnswer (mfEncFrs s.codec ts hdr sync sfid payload src)))

end Sys2Proof.Machine
end

