-- ==== Sys2Proof/Machine/DpEncode.lean ====
section
/-! DEFINITION. The encode steps of the data packet (43_data_packet_encode.md R182 to R185). Each runs where
its rule enables it and is refused elsewhere (30_encoding.md R104; log entry 11). -/

namespace Sys2Proof.Machine

/-- `DP.ENC.HDR` (R182): the mode word little-endian at output address 0. -/
def execDpEncHdr (s : State) : Result :=
  if s.phase = .eHdr then
    .next { s.memWrite 0 (le32Enc s.modeWord) with
      outLen := modeWordBytes
      phase := encodeRoute s.modeWord }
  else .refused (.notEnabled "DP.ENC.HDR")

/-- `DP.ENC.TP` (R183): the one frame's payload at output address 4, with no pad. -/
def execDpEncTp (s : State) : Result :=
  if s.phase = .eTp then
    match s.frames.head? with
    | none => .fault .noFrame
    | some f =>
      if modeWordBytes + (mfEncTp f.payload).length ≤ s.params.outCap then
        .next ({ s.memWrite modeWordBytes (mfEncTp f.payload) with
          outLen := modeWordBytes + (mfEncTp f.payload).length }).endEncode
      else .next (s.takeEncodeFault .capacityError 0)
  else .refused (.notEnabled "DP.ENC.TP")

/-- One frame with a given codec (R184): its encoding and, iff that is odd, one zero byte; a missing
timestamp is tested before the capacity (60_exceptions.md R228). -/
def encodeFrame (c : Codec) (f : MinorFrame) (s : State) : State :=
  match mfuEncode c f s.latchS with
  | .error k => s.takeEncodeFault k s.eidx
  | .ok b =>
    if s.outLen + b.length + b.length % 2 ≤ s.params.outCap then
      { s.memWrite s.outLen (b ++ padBytes b.length) with
        outLen := s.outLen + b.length + b.length % 2
        eidx := s.eidx + 1 }
    else s.takeEncodeFault .capacityError s.eidx

/-- `DP.ENC.FR.STEP` (R184), enabled in E_FR while `EIDX < FRAME_COUNT`. -/
def execDpEncFrStep (s : State) : Result :=
  if s.phase = .eFr then
    match s.frames[s.eidx]? with
    | none => .refused (.notEnabled "DP.ENC.FR.STEP")
    | some f => .next (encodeFrame s.codec f s)
  else .refused (.notEnabled "DP.ENC.FR.STEP")

/-- `DP.ENC.FR.STOP` (R185), enabled in E_FR when `EIDX = FRAME_COUNT`. -/
def execDpEncFrStop (s : State) : Result :=
  if s.phase = .eFr ∧ s.eidx = s.frameCount then .next s.endEncode
  else .refused (.notEnabled "DP.ENC.FR.STOP")

end Sys2Proof.Machine
end

