-- ==== Sys2Proof/Machine/ReadOut.lean ====
section
/-! DEFINITION. The read-out ports RD.FRAME, RD.PAY, RD.OUT (44_host_commands.md R204 to R206): pure
functions of the state, whose answer the model shows on the answer wires (log entry 9). -/

namespace Sys2Proof.Machine

/-- What RD.FRAME shows of a frame (R204). -/
def MinorFrame.view (f : MinorFrame) : FrameView where
  mode := f.mode
  ts := f.ts
  hdr := f.hdr
  ss := f.ss
  plen := f.plen

/-- Frames are readable in EMPTY and READY alone (R204, 20_memory.md R76). -/
def State.framesReadable (s : State) : Bool := decide (s.status = .empty ∨ s.status = .ready)

/-- The frame RD.FRAME addresses; none is `rd_valid = 0` (R204). -/
def State.readableFrame (s : State) (i : Nat) : Option MinorFrame :=
  if s.framesReadable then s.frames[i]? else none

/-- RD.PAY's byte; none is `rd_valid = 0` (R205). -/
def State.readPay (s : State) (i k : Nat) : Option Byte :=
  match s.readableFrame i with
  | none => none
  | some f => f.payload[k]?

/-- Whether RD.OUT answers valid (R206). -/
def State.outReadable (s : State) (k : Nat) : Bool :=
  s.outValid && decide (s.status ≠ .busy) && decide (k < s.outLen)

/-- The meaning of `RD.FRAME(i)` (R204). -/
def execRdFrame (i : Nat) (s : State) : Result :=
  .next (s.showAnswer (.frameView ((s.readableFrame i).map MinorFrame.view)))

/-- The meaning of `RD.PAY(i, k)` (R205). -/
def execRdPay (i k : Nat) (s : State) : Result :=
  .next (s.showAnswer (.byte (s.readPay i k)))

/-- The meaning of `RD.OUT(k)` (R206); an address that OBUF does not have stops (log entry 16). -/
def execRdOut (k : Nat) (s : State) : Result :=
  if s.outReadable k then
    if k < s.params.outCap then .next (s.showAnswer (.byte (some (s.obufByte k))))
    else .fault .obufRange
  else .next (s.showAnswer (.byte none))

end Sys2Proof.Machine
end

