-- ==== Sys2Proof/Machine/Dispatch.lean ====
section
/-! DEFINITION. Which meaning each operation of the opcode table has. -/

namespace Sys2Proof.Machine

/-- What an operation does. -/
def exec (i : Instr) (s : State) : Host.Outcome State Fault Refusal :=
  match i with
  | .cmdNop => Sys2Proof.Machine.execCmdNop s
  | .cmdClear => Sys2Proof.Machine.execCmdClear s
  | .cmdDecode => Sys2Proof.Machine.execCmdDecode s
  | .cmdEncode => Sys2Proof.Machine.execCmdEncode s
  | .cmdAppend => Sys2Proof.Machine.execCmdAppend s
  | .cmdReserved5 => Sys2Proof.Machine.execCmdReserved5 s
  | .cmdReserved6 => Sys2Proof.Machine.execCmdReserved6 s
  | .cmdReserved7 => Sys2Proof.Machine.execCmdReserved7 s
  | .dpMode => Sys2Proof.Machine.execDpMode s
  | .dpDecTp => Sys2Proof.Machine.execDpDecTp s
  | .dpDecFr => Sys2Proof.Machine.execDpDecFr s
  | .dpDecFrStep => Sys2Proof.Machine.execDpDecFrStep s
  | .dpDecFrStop => Sys2Proof.Machine.execDpDecFrStop s
  | .mfDecTp region => Sys2Proof.Machine.execMfDecTp region s
  | .mfDecFr region src => Sys2Proof.Machine.execMfDecFr region src s
  | .mfDecFrs region src => Sys2Proof.Machine.execMfDecFrs region src s
  | .fxTs region src => Sys2Proof.Machine.execFxTs region src s
  | .fxHdr region => Sys2Proof.Machine.execFxHdr region s
  | .fxSs region => Sys2Proof.Machine.execFxSs region s
  | .fxPay region start => Sys2Proof.Machine.execFxPay region start s
  | .mfEncTp payload => Sys2Proof.Machine.execMfEncTp payload s
  | .mfEncFr ts hdr payload src => Sys2Proof.Machine.execMfEncFr ts hdr payload src s
  | .mfEncFrs ts hdr sync sfid payload src => Sys2Proof.Machine.execMfEncFrs ts hdr sync sfid payload src s
  | .dpEncHdr => Sys2Proof.Machine.execDpEncHdr s
  | .dpEncTp => Sys2Proof.Machine.execDpEncTp s
  | .dpEncFrStep => Sys2Proof.Machine.execDpEncFrStep s
  | .dpEncFrStop => Sys2Proof.Machine.execDpEncFrStop s
  | .rdFrame idx => Sys2Proof.Machine.execRdFrame idx s
  | .rdPay idx k => Sys2Proof.Machine.execRdPay idx k s
  | .rdOut k => Sys2Proof.Machine.execRdOut k s

end Sys2Proof.Machine
end

