-- ==== Sys2Proof/Machine/HostPort.lean ====
section
/-! DEFINITION. The host's accesses that are not operations of the opcode table: register reads and
writes, byte writes to IBUF and A_PAY, reset (10_state.md R28 to R42, 44_host_commands.md R208,
60_exceptions.md R232, R233, 70_reset_and_hazards.md R250). -/

namespace Sys2Proof.Machine

/-- The numbered registers (10_state.md R28). -/
inductive Reg where
  | ctrl
  | fps
  | bufLen
  | cmd
  | status
  | modeWord
  | offset
  | frameCount
  | errKind
  | errCause
  | errOffset
  | errLen
  | errIndex
  | refCode
  | outLen
  | reserved15
  | aFlags
  | aTs
  | aHdr
  | aSync
  | aSfid
  | aPlen
  deriving DecidableEq, Repr

/-- The register of a number (10_state.md R28); none above 21. -/
def regOfNumber : Nat → Option Reg
  | 0 => some .ctrl
  | 1 => some .fps
  | 2 => some .bufLen
  | 3 => some .cmd
  | 4 => some .status
  | 5 => some .modeWord
  | 6 => some .offset
  | 7 => some .frameCount
  | 8 => some .errKind
  | 9 => some .errCause
  | 10 => some .errOffset
  | 11 => some .errLen
  | 12 => some .errIndex
  | 13 => some .refCode
  | 14 => some .outLen
  | 15 => some .reserved15
  | 16 => some .aFlags
  | 17 => some .aTs
  | 18 => some .aHdr
  | 19 => some .aSync
  | 20 => some .aSfid
  | 21 => some .aPlen
  | _ => none

/-- What a register reads as (10_state.md R28 to R42). CMD and register 15 read 0; no read changes
anything (20_memory.md R71). -/
def State.regValue (s : State) : Reg → Nat
  | .ctrl => s.ctrl.toNat
  | .fps => s.fps
  | .bufLen => s.bufLen
  | .cmd => 0
  | .status => s.statusWord.toNat
  | .modeWord => s.modeWord.toNat
  | .offset => s.offset
  | .frameCount => s.frameCount
  | .errKind => errCode s.errKind
  | .errCause => errCode s.errCause
  | .errOffset => s.errOffset
  | .errLen => s.errLen
  | .errIndex => s.errIndex
  | .refCode => refCodeOf s.refCode
  | .outLen => s.outLen
  | .reserved15 => 0
  | .aFlags => s.aFlags.toNat
  | .aTs => s.aTs.code
  | .aHdr => s.aHdr.toNat
  | .aSync => s.aSync.toNat
  | .aSfid => s.aSfid.toNat
  | .aPlen => s.aPlen

/-- Whether a write to the register is ignored without a refusal: the read-only registers and register 15
(10_state.md R28, 60_exceptions.md R233; log entry 14). -/
def Reg.ignoresWrites : Reg → Bool
  | .ctrl => false
  | .fps => false
  | .bufLen => false
  | .cmd => false
  | .status => true
  | .modeWord => false
  | .offset => true
  | .frameCount => true
  | .errKind => true
  | .errCause => true
  | .errOffset => true
  | .errLen => true
  | .errIndex => true
  | .refCode => true
  | .outLen => true
  | .reserved15 => true
  | .aFlags => false
  | .aTs => false
  | .aHdr => false
  | .aSync => false
  | .aSfid => false
  | .aPlen => false

/-- A write of `BUF_LEN` (10_state.md R33). -/
def State.writeBufLen (s : State) (v : Nat) : State :=
  if v ≤ s.params.bufCap then { s with bufLen := v } else s.refuse .capacity

/-- A write of `A_PLEN` (10_state.md R42). -/
def State.writeAPlen (s : State) (v : Nat) : State :=
  if v ≤ s.params.payCap then { s with aPlen := v } else s.refuse .capacity

/-- A write of `MODE_WORD` outside BUSY (10_state.md R37, R41; 44_host_commands.md R208; log entry 15). -/
def State.writeModeWord (s : State) (v : Nat) : State :=
  match s.status with
  | .empty => { s with modeWord := BitVec.ofNat 32 v, outValid := false, outLen := 0 }
  | .ready => s.refuse .badState
  | .faulted => s.refuse .badState
  | .busy => s.refuse .locked

/-- A register write outside BUSY (44_host_commands.md R208). A write to CMD is a command and comes
through the decoder, not through here. -/
def State.writeRegIdle (s : State) (r : Reg) (v : Nat) : State :=
  match r with
  | .ctrl => { s with ctrl := ctrlStored v }
  | .fps => { s with fps := s.truncOff v, fpsSet := true }
  | .bufLen => s.writeBufLen (s.truncOff v)
  | .cmd => s
  | .status => s
  | .modeWord => s.writeModeWord v
  | .offset => s
  | .frameCount => s
  | .errKind => s
  | .errCause => s
  | .errOffset => s
  | .errLen => s
  | .errIndex => s
  | .refCode => s
  | .outLen => s
  | .reserved15 => s
  | .aFlags => { s with aFlags := BitVec.ofNat 3 v }
  | .aTs => { s with aTs := s.truncTs v }
  | .aHdr => { s with aHdr := BitVec.ofNat 16 v }
  | .aSync => { s with aSync := BitVec.ofNat 32 v }
  | .aSfid => { s with aSfid := BitVec.ofNat 16 v }
  | .aPlen => s.writeAPlen (s.truncOff v)

/-- A host write to a register (44_host_commands.md R208): Locked while BUSY, whatever else is wrong
(60_exceptions.md R233), unless the register ignores writes. -/
def State.writeReg (s : State) (r : Reg) (v : Nat) : State :=
  if r.ignoresWrites then s
  else if s.status = .busy then s.refuse .locked
  else s.writeRegIdle r v

/-- A host byte write to IBUF (10_state.md R44, 44_host_commands.md R208). -/
def State.writeIbuf (s : State) (offset : Nat) (byte : Byte) : State :=
  if s.status = .busy then s.refuse .locked
  else if offset < s.params.bufCap then { s with ibuf := Memory.set s.ibuf offset byte }
  else s.refuse .capacity

/-- A host byte write to the staging payload (10_state.md R42, 44_host_commands.md R208). -/
def State.writeApay (s : State) (index : Nat) (byte : Byte) : State :=
  if s.status = .busy then s.refuse .locked
  else if index < s.params.payCap then { s with apay := Memory.set s.apay index byte }
  else s.refuse .capacity

/-- A write to a register number. -/
def State.hostWrite (s : State) (reg value : Nat) : Result :=
  match regOfNumber reg with
  | none => .fault (.noRegister reg)
  | some r => .next (s.writeReg r value)

/-- A read of a register number (10_state.md R28, 20_memory.md R71). -/
def State.hostRead (s : State) (reg : Nat) : Result :=
  match regOfNumber reg with
  | none => .fault (.noRegister reg)
  | some r => .next (s.showAnswer (.reg (s.regValue r)))

end Sys2Proof.Machine
end

