-- ==== Sys2Proof/Machine/Fetch.lean ====
section
/-! DEFINITION. Which operation the machine runs next: a host action if one is due, else the small step
that PHASE selects (30_encoding.md R103, R104, R106; 70_reset_and_hazards.md R252, R271; log entry 3). -/

namespace Sys2Proof.Machine

/-- What the next step is about. -/
inductive Fetched where
  /-- An operation of the opcode table, by its selecting wires, to run in this state. -/
  | run (sel : Selector) (s : State)
  /-- A register write that is not a command. -/
  | write (reg value : Nat) (s : State)
  /-- A register read. -/
  | read (reg : Nat) (s : State)
  /-- A byte write to IBUF. -/
  | writeIbuf (offset : Nat) (byte : Byte) (s : State)
  /-- A byte write to A_PAY. -/
  | writeApay (index : Nat) (byte : Byte) (s : State)
  /-- Reset. -/
  | reset (s : State)
  /-- Nothing to run: no command is running and the host does nothing (70_reset_and_hazards.md R252). -/
  | idle (s : State)
  deriving DecidableEq, Repr

/-- Whether an item is left for the running iteration (30_encoding.md R104): the fit test in D_FR,
`EIDX < FRAME_COUNT` in E_FR. -/
def State.more (s : State) : Bool :=
  match s.phase with
  | .dFr => s.fits
  | .eFr => decide (s.eidx < s.frameCount)
  | .idle => false
  | .dMode => false
  | .dTp => false
  | .dFre => false
  | .eHdr => false
  | .eTp => false

/-- The sequencer's turn (30_encoding.md R104). -/
def State.fetchStep (s : State) : Fetched :=
  if s.phase = .idle then .idle s else .run (.step s.phase s.more) s

/-- What the next step is about. A host action is taken from the front of the list; a write to register 3
is a command (10_state.md R34). -/
def fetch (s : State) : Fetched :=
  match s.host with
  | [] => s.fetchStep
  | .tick :: rest => ({ s with host := rest }).fetchStep
  | .write reg value :: rest =>
    if reg = 3 then .run (.command value) { s with host := rest }
    else .write reg value { s with host := rest }
  | .read reg :: rest => .read reg { s with host := rest }
  | .writeIbuf offset byte :: rest => .writeIbuf offset byte { s with host := rest }
  | .writeApay index byte :: rest => .writeApay index byte { s with host := rest }
  | .rdFrame i :: rest => .run (.portFrame i) { s with host := rest }
  | .rdPay i k :: rest => .run (.portPay i k) { s with host := rest }
  | .rdOut k :: rest => .run (.portOut k) { s with host := rest }
  | .reset :: rest => .reset { s with host := rest }

/-- The state in which the next step is a CMD write of this value. -/
def State.placeCommand (s : State) (w : Nat) : State := { s with host := .write 3 w :: s.host }

/-- The state in which the next step is the one that the mode word `w`, just read, routes the decode to
(30_encoding.md R100). -/
def State.placeRouted (s : State) (w : Nat) : State :=
  { s with
    host := .tick :: s.host
    modeWord := BitVec.ofNat 32 w
    status := .busy
    phase := decodeRoute (BitVec.ofNat 32 w) }

/-- The state in which the next step is `DP.MODE` on the mode word `w` at packet offset 0. -/
def State.placeModeWord (s : State) (w : Nat) : State :=
  { s with
    host := .tick :: s.host
    ibuf := Memory.setBytes s.ibuf 0 (leBytes 4 w)
    latchL := modeWordBytes
    status := .busy
    phase := .dMode }

/-- An item of `nbits` bits placed where the next step takes it, as `decodeBytes` reads items of that many
bytes (log entry 13). Any other number of bits is no item, and the state stays. -/
def State.placeItem (s : State) (nbits w : Nat) : State :=
  match nbits / 8 with
  | 1 => s.placeCommand w
  | 3 => s.placeRouted w
  | 4 => s.placeModeWord w
  | _ => s

end Sys2Proof.Machine
end

