-- ==== Sys2Proof/Machine/Step.lean ====
section
/-! DEFINITION. One step: fetch, decode, run (00_scope.md R19, log entry 3). -/

namespace Sys2Proof.Machine

/-- Run the operation that the selecting wires select. -/
def runSelected (sel : Selector) (s : State) : Host.Outcome State Fault Refusal :=
  match decode sel with
  | .ok i => exec i s
  | .error why => .refused (.undecodable why)

/-- One step of the machine: one host action, or one small step of the sequencer (00_scope.md R19,
70_reset_and_hazards.md R271). With no host action and no running command the machine waits
(70_reset_and_hazards.md R252). -/
def step (s : State) : Host.Outcome State Fault Refusal :=
  match fetch s with
  | .run sel s' => runSelected sel s'
  | .write reg value s' => s'.hostWrite reg value
  | .read reg s' => s'.hostRead reg
  | .writeIbuf offset byte s' => .next (s'.writeIbuf offset byte)
  | .writeApay index byte s' => .next (s'.writeApay index byte)
  | .reset s' => .next s'.applyReset
  | .idle s' => .next s'

/-- The state whose next step takes the item `w` of `nbits` bits (log entries 3 and 13). -/
def State.withFetchWord (s : State) (nbits w : Nat) : State := s.placeItem nbits w

end Sys2Proof.Machine
end

