-- ==== Sys2Proof/Machine/BigStep.lean ====
section
/-! DEFINITION. The big-step meaning of a decode and of an encode (42_data_packet_decode.md R155,
43_data_packet_encode.md R180): what the small steps add up to (00_scope.md R19). -/

namespace Sys2Proof.Machine

/-- The result of `DP_DECODE` (R155). -/
inductive DecodeResult where
  /-- `Ok(mw, fr, off)`. -/
  | ok (mw : U32) (frames : List MinorFrame) (off : Nat)
  /-- `Fault(kind, cause, off, L)`. -/
  | fault (kind : ErrKind) (cause : Option ErrKind) (off : Nat) (len : Nat)
  deriving DecidableEq, Repr

/-- The loop of `DP_DECODE` (R155), with fuel: `fr` are the frames so far and `off` is the cursor. -/
def decodeRecords (c : Codec) (buf : Bytes) (x : Bool) (rs : Nat) (src : TsSrc) (mw : U32) :
    Nat → List MinorFrame → Nat → DecodeResult
  | 0, fr, off => .ok mw fr off
  | fuel + 1, fr, off =>
    if off + rs ≤ buf.length then
      match mfuDecode c (slice buf off (off + rs)) false x src with
      | .error k => .fault .offsetDecodeError (some k) off buf.length
      | .ok f => decodeRecords c buf x rs src mw fuel (fr ++ [f]) (off + padded rs)
    else .ok mw fr off

/-- `DP_DECODE` (R155) on the valid buffer `IBUF[0:L)`. The loop runs at most `L` times, since every stride
is at least 10 (R174). -/
def dpDecode (c : Codec) (buf : Bytes) (x : Bool) (p : Nat) (pv : Bool) (src : TsSrc) : DecodeResult :=
  if buf.length < modeWordBytes then .fault .malformedBuffer none 0 buf.length
  else if modeWordTp (le32 (slice buf 0 modeWordBytes)) then
    .ok (le32 (slice buf 0 modeWordBytes)) [mfDecTp (sliceFrom buf firstRecOffset)] buf.length
  else if pv then
    decodeRecords c buf x (recSize p) src (le32 (slice buf 0 modeWordBytes)) buf.length [] firstRecOffset
  else .fault .configurationError none firstRecOffset buf.length

/-- The result of `DP_ENCODE` (R180). -/
inductive EncodeResult where
  /-- `Ok(out)`. -/
  | ok (out : Bytes)
  /-- `Fault(kind, i)`. -/
  | fault (kind : ErrKind) (index : Nat)
  deriving DecidableEq, Repr

/-- The loop of `DP_ENCODE` (R180) from frame `i` on, with the output so far. -/
def encodeFrames (c : Codec) (src : TsSrc) (outCap : Nat) : Nat → Bytes → List MinorFrame → EncodeResult
  | _, out, [] => .ok out
  | i, out, f :: fs =>
    match mfuEncode c f src with
    | .error k => .fault k i
    | .ok b =>
      if out.length + b.length + b.length % 2 ≤ outCap then
        encodeFrames c src outCap (i + 1) (out ++ b ++ padBytes b.length) fs
      else .fault .capacityError i

/-- `DP_ENCODE` (R180). A throughput packet has one frame (44_host_commands.md R196); with none there is
nothing to emit after the mode word. -/
def dpEncode (c : Codec) (mw : U32) (frames : List MinorFrame) (src : TsSrc) (outCap : Nat) :
    EncodeResult :=
  if modeWordTp mw then
    match frames with
    | [] => .ok (le32Enc mw)
    | f :: _ =>
      if modeWordBytes + (mfEncTp f.payload).length ≤ outCap then
        .ok (le32Enc mw ++ mfEncTp f.payload)
      else .fault .capacityError 0
  else encodeFrames c src outCap 0 (le32Enc mw) frames

/-- The state a decode result leaves (R155; the fault entry is 60_exceptions.md R224). MODE_WORD keeps the
word read also on a fault, if it was read; if it was not (`L < 4`), MODE_WORD keeps what it held, also a word
the host wrote in EMPTY (DESIGN CHOICE, log entry 23). -/
def State.applyDecode (s : State) : DecodeResult → State
  | .ok mw frames off => ({ s with modeWord := mw, frames := frames, offset := off }).endDecode
  | .fault kind cause off _ =>
    ({ s with
      modeWord := if s.latchL < modeWordBytes then s.modeWord
        else le32 (slice s.inputBuffer 0 modeWordBytes)
      offset := off }).takeDecodeFault kind cause

/-- The big-step end of the decode that runs in `s`. -/
def State.decodeEnd (c : Codec) (s : State) : State :=
  s.applyDecode (dpDecode c s.inputBuffer s.latchX s.latchP s.latchPV s.latchS)

end Sys2Proof.Machine
end

