-- ==== Sys2Proof/Machine/Packet.lean ====
section
/-! DEFINITION. The packet that PCMDF holds (10_state.md R23) and the two equalities of 10_state.md R26 and
R27. PCMDF has no comparator: the round-trip laws and the test vectors are stated with them. -/

namespace Sys2Proof.Machine

/-- The packet: the mode word, the latched timestamp source and the frames (10_state.md R23). -/
structure Packet where
  modeWord : U32
  src : TsSrc
  frames : List MinorFrame
  deriving DecidableEq, Repr

/-- The packet that a state holds (10_state.md R23). -/
def State.packet (s : State) : Packet where
  modeWord := s.modeWord
  src := s.latchS
  frames := s.frames

/-- `MF_EQ` (10_state.md R26): the five fields are equal, the payloads as byte sequences. -/
def mfEq (f g : MinorFrame) : Bool :=
  decide (f.mode = g.mode) && decide (f.ts = g.ts) && decide (f.hdr = g.hdr) && decide (f.ss = g.ss)
    && decide (f.payload = g.payload)

/-- Whether two frame sequences of one length have `MF_EQ` frames at every index (10_state.md R27). -/
def framesEq : List MinorFrame → List MinorFrame → Bool
  | f :: fs, g :: gs => mfEq f g && framesEq fs gs
  | [], _ => true
  | _ :: _, [] => true

/-- `DP_EQ` (10_state.md R27): all 32 bits of the mode words, the frame counts, and the frames in order. The
timestamp source takes no part. -/
def dpEq (p q : Packet) : Bool :=
  decide (p.modeWord = q.modeWord) && decide (p.frames.length = q.frames.length)
    && framesEq p.frames q.frames

end Sys2Proof.Machine
end

