-- ==== Sys2Proof/Safety.lean ====
section
/-! DEFINITION. What a sound state of PCMDF is (10_state.md R22, R25, R29, R31, R46, R48; 60_exceptions.md
R224 to R226), and what it means that the output buffer is the encoding of the packet (R41). -/

namespace Sys2Proof.Machine

/-- Every listed address of a memory exists. -/
def Memory.within (m : Memory) (cap : Nat) : Prop := ∀ c ∈ m, c.1 < cap

/-- A decode is running: PHASE is one of its phases (10_state.md R46). -/
def State.decoding (s : State) : Prop :=
  s.phase = .dMode ∨ s.phase = .dTp ∨ s.phase = .dFre ∨ s.phase = .dFr

/-- An encode is running: PHASE is one of its phases (10_state.md R46). -/
def State.encoding (s : State) : Prop := s.phase = .eHdr ∨ s.phase = .eTp ∨ s.phase = .eFr

/-- The capacities and widths (00_scope.md R9, R15; 10_state.md R24, R28 to R45). -/
structure State.Bounded (s : State) : Prop where
  ctrl_reserved : s.ctrl &&& 0xFFFFFFFC#32 = 0#32
  fps_fits : s.fps < 2 ^ s.params.offW
  latchP_fits : s.latchP < 2 ^ s.params.offW
  bufLen_le : s.bufLen ≤ s.params.bufCap
  latchL_le : s.latchL ≤ s.params.bufCap
  offset_le : s.offset ≤ s.latchL + 1
  aPlen_le : s.aPlen ≤ s.params.payCap
  count_le : s.frameCount ≤ s.params.frmCap
  payload_le : ∀ f ∈ s.frames, f.plen ≤ s.params.payCap
  outLen_le : s.outLen ≤ s.params.outCap
  aTs_fits : s.aTs.code < 2 ^ s.params.tsW
  frameTs_fits : ∀ f ∈ s.frames, s.params.fitsTs f.ts = true
  errOffset_le : s.errOffset ≤ s.params.bufCap + 1
  errLen_le : s.errLen ≤ s.params.bufCap
  errIndex_le : s.errIndex ≤ s.params.frmCap
  eidx_le : s.eidx ≤ s.params.frmCap

/-- The buffers keep their canonical form and hold only addresses that exist (10_state.md R42, R44, R45). -/
structure State.MemoryOk (s : State) : Prop where
  ibuf_wf : Memory.wf s.ibuf = true
  obuf_wf : Memory.wf s.obuf = true
  apay_wf : Memory.wf s.apay = true
  ibuf_within : Memory.within s.ibuf s.params.bufCap
  obuf_within : Memory.within s.obuf s.params.outCap
  apay_within : Memory.within s.apay s.params.payCap

/-- The packet and the lifecycle (10_state.md R25, R46, R48). -/
structure State.PacketOk (s : State) : Prop where
  idle_iff : s.phase = .idle ↔ s.status ≠ .busy
  mode_eq : ∀ f ∈ s.frames, f.mode = s.mode
  empty_frames : s.status = .empty → s.frames = []
  faulted_frames : s.status = .faulted → s.frames = []
  ready_single : s.status = .ready → s.tp = true → s.frameCount = 1

/-- The fault record (10_state.md R39; 60_exceptions.md R224 to R226). -/
structure State.ErrorsOk (s : State) : Prop where
  none_zero : s.errKind = none →
    s.errCause = none ∧ s.errOffset = 0 ∧ s.errLen = 0 ∧ s.errIndex = 0
  cause_iff : s.errCause ≠ none ↔ s.errKind = some .offsetDecodeError
  cause_eq : ∀ k, s.errCause = some k → k = .malformedBuffer
  empty_none : s.status = .empty → s.errKind = none
  faulted_some : s.status = .faulted → s.errKind ≠ none
  decoding_none : s.decoding → s.errKind = none

/-- What holds in each phase of a decode (42_data_packet_decode.md R160 to R166, 10_state.md R30). -/
structure State.DecodeOk (s : State) : Prop where
  dMode : s.phase = .dMode → s.offset = 0 ∧ s.frames = []
  dTp : s.phase = .dTp → s.tp = true ∧ 4 ≤ s.latchL ∧ s.offset = 4 ∧ s.frames = []
  dFre : s.phase = .dFre → s.tp = false ∧ 4 ≤ s.latchL ∧ s.offset = 4 ∧ s.frames = []
  dFr : s.phase = .dFr →
    s.tp = false ∧ 4 ≤ s.latchL ∧ s.latchPV = true ∧ s.offset = 4 + s.frameCount * s.stride

/-- What holds in each phase of an encode (43_data_packet_encode.md R181 to R186); no output is valid while a
command runs (10_state.md R41, 42_data_packet_decode.md R160). -/
structure State.EncodeOk (s : State) : Prop where
  not_valid : s.phase ≠ .idle → s.outValid = false
  ret_empty : s.encoding → s.ret = .empty → s.frames = [] ∧ s.tp = false ∧ s.errKind = none
  ret_ready : s.encoding → s.tp = true → s.frameCount = 1
  eHdr : s.phase = .eHdr → s.outLen = 0 ∧ s.eidx = 0
  eTp : s.phase = .eTp → s.tp = true ∧ s.outLen = 4
  eFr : s.phase = .eFr →
    s.tp = false ∧ s.eidx ≤ s.frameCount ∧ 4 ≤ s.outLen ∧ s.outLen % 2 = 0

/-- The sound states: the invariant of the machine. -/
structure State.Inv (s : State) : Prop where
  bounded : s.Bounded
  memory : s.MemoryOk
  packet : s.PacketOk
  errors : s.ErrorsOk
  decode : s.DecodeOk
  encode : s.EncodeOk

/-- Every output byte below OUT_LEN was written by an encode: where the output is valid or an encode is
past its first step, no unspecified byte of OBUF (93 U2) lies below OUT_LEN. -/
def State.OutputWritten (s : State) : Prop :=
  s.outValid = true ∨ s.phase = .eTp ∨ s.phase = .eFr →
    ∀ k, k < s.outLen → (Memory.get s.obuf k).isSome = true

/-- Whenever OUT_VALID is 1 the output buffer is the encoding of the current packet (10_state.md R41), and
a running encode has emitted a part of it from which the rest follows. -/
structure State.OutputOk (s : State) : Prop where
  valid : s.outValid = true →
    dpEncode s.codec s.modeWord s.frames s.latchS s.params.outCap
      = .ok (s.obufSlice 0 s.outLen)
  eTp : s.phase = .eTp → s.obufSlice 0 s.outLen = le32Enc s.modeWord
  eFr : s.phase = .eFr →
    dpEncode s.codec s.modeWord s.frames s.latchS s.params.outCap
      = encodeFrames s.codec s.latchS s.params.outCap s.eidx (s.obufSlice 0 s.outLen)
          (s.frames.drop s.eidx)

/-- A host action that names a register names one that exists (10_state.md R28). -/
def HostOp.namesRegister : HostOp → Bool
  | .tick => true
  | .write reg _ => decide (reg ≤ 21)
  | .read reg => decide (reg ≤ 21)
  | .writeIbuf _ _ => true
  | .writeApay _ _ => true
  | .rdFrame _ => true
  | .rdPay _ _ => true
  | .rdOut _ => true
  | .reset => true

end Sys2Proof.Machine
end

