-- ==== Sys2Proof/Certificates/Slice0/Obligations.lean ====
section
/-! DEFINITION. The statements for the provers. Each docstring names the rules it formalises. A next state
written `{ s with … }` says the whole frame: every field not named is unchanged. Where an operation stores to
OBUF, the statement says so byte by byte through `State.obufByte`. -/

open Sys2Proof Sys2Proof.Machine

/-! Reset, step and decoding. -/

/-- R49: every value after reset, and that the machine waits for a host command. What an unwritten byte and A_TS
read as is the model's free value (log entries 4 and 5), the waiting step the model's (log entry 3). -/
def Obligations.ResetGivesListedValues : Prop :=
  ∀ (p : Params) (n : Nat),
    let s := State.resetWith p n
    (s.ctrl = 0#32 ∧ s.extract = false ∧ s.tsSrc = .rtc ∧ s.fps = 0 ∧ s.fpsSet = false ∧ s.bufLen = 0
      ∧ s.statusWord = 0#32 ∧ s.status = .empty ∧ s.modeWord = 0#32 ∧ s.offset = 0
      ∧ s.frameCount = 0 ∧ s.frames = [])
    ∧ (s.errKind = none ∧ s.errCause = none ∧ s.errOffset = 0 ∧ s.errLen = 0 ∧ s.errIndex = 0
      ∧ s.refCode = none ∧ s.outLen = 0 ∧ s.outValid = false)
    ∧ (s.aFlags = 0#3 ∧ s.aHdr = 0#16 ∧ s.aSync = 0#32 ∧ s.aSfid = 0#16 ∧ s.aPlen = 0)
    ∧ (s.latchS = .rtc ∧ s.latchL = 0 ∧ s.latchX = false ∧ s.latchP = 0 ∧ s.latchPV = false
      ∧ s.phase = .idle ∧ s.eidx = 0 ∧ s.ret = .empty)
    ∧ (∀ a, s.ibufByte a = Config.ibufFree n a ∧ s.obufByte a = Config.obufFree n a
      ∧ s.apayByte a = Config.apayFree n a)
    ∧ s.aTs = ⟨(Config.aTsFree p.tsW n).toNat⟩
    ∧ step s = .next s

/-- The reset state is sound, for every parameter set. -/
def Obligations.ResetMeetsInvariant : Prop :=
  ∀ (p : Params) (n : Nat), (State.resetWith p n).Inv ∧ (State.resetWith p n).OutputWritten
    ∧ (State.resetWith p n).OutputOk

/-- R250: whatever the state, also in the middle of a command, reset gives the reset state. The parameters,
the host's coming actions and the reset count are the model's (log entries 1, 3, 6). -/
def Obligations.ResetFromAnyState : Prop :=
  ∀ (s : State) (rest : List HostOp), s.host = .reset :: rest →
    step s = .next { State.resetWith s.params (s.resets + 1) with host := rest }

/-- A step runs the decoded instruction: a command write, a read-out port, or the small step that PHASE
selects, in the state whose host action has been taken. The other host actions are done in that state too: a
write to a register that is not CMD, a register read, a byte write to IBUF or A_PAY (what each does is stated
below). With no running command, a tick and an empty list of host actions leave the machine waiting. The list of
host actions is the model's (log entry 3). -/
def Obligations.StepRunsDecodedInstruction : Prop :=
  (∀ (s t : State) (sel : Selector) (i : Instr),
    fetch s = .run sel t → decode sel = .ok i → step s = exec i t)
  ∧ (∀ (s : State) (rest : List HostOp) (value : Nat), s.host = .write 3 value :: rest →
      fetch s = .run (.command value) { s with host := rest })
  ∧ (∀ (s : State) (rest : List HostOp) (i : Nat), s.host = .rdFrame i :: rest →
      fetch s = .run (.portFrame i) { s with host := rest })
  ∧ (∀ (s : State) (rest : List HostOp) (i k : Nat), s.host = .rdPay i k :: rest →
      fetch s = .run (.portPay i k) { s with host := rest })
  ∧ (∀ (s : State) (rest : List HostOp) (k : Nat), s.host = .rdOut k :: rest →
      fetch s = .run (.portOut k) { s with host := rest })
  ∧ (∀ s : State, s.host = [] → s.phase ≠ .idle → fetch s = .run (.step s.phase s.more) s)
  ∧ (∀ (s : State) (rest : List HostOp), s.host = .tick :: rest → s.phase ≠ .idle →
      fetch s = .run (.step s.phase s.more) { s with host := rest })
  ∧ (∀ s : State, s.host = [] → s.phase = .idle → step s = .next s)
  ∧ (∀ (s : State) (rest : List HostOp), s.host = .tick :: rest → s.phase = .idle →
      step s = .next { s with host := rest })
  ∧ (∀ (s : State) (rest : List HostOp) (reg value : Nat), s.host = .write reg value :: rest → reg ≠ 3 →
      step s = ({ s with host := rest } : State).hostWrite reg value)
  ∧ (∀ (s : State) (rest : List HostOp) (reg : Nat), s.host = .read reg :: rest →
      step s = ({ s with host := rest } : State).hostRead reg)
  ∧ (∀ (s : State) (rest : List HostOp) (a : Nat) (b : Byte), s.host = .writeIbuf a b :: rest →
      step s = .next (({ s with host := rest } : State).writeIbuf a b))
  ∧ (∀ (s : State) (rest : List HostOp) (a : Nat) (b : Byte), s.host = .writeApay a b :: rest →
      step s = .next (({ s with host := rest } : State).writeApay a b))

/-- R103 and R207: the command codes; bits of the written value above bit 2 do not matter (R34). -/
def Obligations.CommandCodesDecode : Prop :=
  ∀ v : Nat,
    (v % 8 = 0 → decode (.command v) = .ok .cmdNop)
    ∧ (v % 8 = 1 → decode (.command v) = .ok .cmdClear)
    ∧ (v % 8 = 2 → decode (.command v) = .ok .cmdDecode)
    ∧ (v % 8 = 3 → decode (.command v) = .ok .cmdEncode)
    ∧ (v % 8 = 4 → decode (.command v) = .ok .cmdAppend)
    ∧ (v % 8 = 5 → decode (.command v) = .ok .cmdReserved5)
    ∧ (v % 8 = 6 → decode (.command v) = .ok .cmdReserved6)
    ∧ (v % 8 = 7 → decode (.command v) = .ok .cmdReserved7)

/-- R101, R102 and R104: DSEL, ESEL, PHASE and the order of the field operations select as the tables say. -/
def Obligations.SelectorsDecode : Prop :=
  (∀ (region : Bytes) (src : TsSrc),
    decode (.dsel 0b10#2 region src) = .ok (.mfDecTp region)
    ∧ decode (.dsel 0b11#2 region src) = .ok (.mfDecTp region)
    ∧ decode (.dsel 0b00#2 region src) = .ok (.mfDecFr region src)
    ∧ decode (.dsel 0b01#2 region src) = .ok (.mfDecFrs region src)
    ∧ decode (.part false 0 region src) = .ok (.fxTs region src)
    ∧ decode (.part false 1 region src) = .ok (.fxHdr region)
    ∧ decode (.part false 2 region src) = .ok (.fxPay region .afterHdr)
    ∧ decode (.part true 0 region src) = .ok (.fxTs region src)
    ∧ decode (.part true 1 region src) = .ok (.fxHdr region)
    ∧ decode (.part true 2 region src) = .ok (.fxSs region)
    ∧ decode (.part true 3 region src) = .ok (.fxPay region .afterSs))
  ∧ (∀ (f : FrameWires) (src : TsSrc),
    decode (.esel 0b10#2 f src) = .ok (.mfEncTp f.payload)
    ∧ decode (.esel 0b00#2 f src) = .ok (.mfEncFr f.ts f.hdr f.payload src)
    ∧ decode (.esel 0b01#2 f src) = .ok (.mfEncFrs f.ts f.hdr f.sync f.sfid f.payload src))
  ∧ (∀ more : Bool,
    decode (.step .dMode more) = .ok .dpMode ∧ decode (.step .dTp more) = .ok .dpDecTp
    ∧ decode (.step .dFre more) = .ok .dpDecFr ∧ decode (.step .eHdr more) = .ok .dpEncHdr
    ∧ decode (.step .eTp more) = .ok .dpEncTp)
  ∧ decode (.step .dFr true) = .ok .dpDecFrStep ∧ decode (.step .dFr false) = .ok .dpDecFrStop
  ∧ decode (.step .eFr true) = .ok .dpEncFrStep ∧ decode (.step .eFr false) = .ok .dpEncFrStop

/-- Decode and encode agree on every operation, with every operand. -/
def Obligations.DecodeOfEncode : Prop := ∀ i : Instr, decode (encode i) = .ok i

/-! Commands. -/

/-- R203: CMD.NOP changes no state, and is refused only while BUSY. -/
def Obligations.NopChangesNothing : Prop :=
  ∀ s : State, (s.status ≠ .busy → exec .cmdNop s = .next s)
    ∧ (s.status = .busy → exec .cmdNop s = .next (s.refuse .locked))

/-- R197: CMD.CLEAR outside BUSY constructs a new empty packet and changes nothing else. -/
def Obligations.ClearConstructsEmptyPacket : Prop :=
  ∀ s : State,
    (s.status ≠ .busy → exec .cmdClear s = .next { s with
      frames := [], modeWord := 0#32, offset := 0, errKind := none, errCause := none, errOffset := 0,
      errLen := 0, errIndex := 0, refCode := none, outLen := 0, outValid := false, latchS := s.tsSrc,
      status := .empty })
    ∧ (s.status = .busy → exec .cmdClear s = .next (s.refuse .locked))

/-- R160: the start of a decode, accepted in EMPTY. -/
def Obligations.DecodeStartStep : Prop :=
  ∀ s : State, s.status = .empty → exec .cmdDecode s = .next { s with
    latchL := s.bufLen, latchX := s.extract, latchP := s.fps, latchPV := s.fpsSet, offset := 0,
    outValid := false, outLen := 0, status := .busy, phase := .dMode }

/-- R181: the start of an encode, accepted in READY, and in EMPTY where bit 20 of MODE_WORD is 0 (R196). -/
def Obligations.EncodeStartStep : Prop :=
  ∀ s : State,
    (s.status = .ready → exec .cmdEncode s = .next { s with
      ret := .ready, outValid := false, outLen := 0, eidx := 0, status := .busy, phase := .eHdr })
    ∧ (s.status = .empty → s.modeWord.getLsbD 20 = false → exec .cmdEncode s = .next { s with
      ret := .empty, outValid := false, outLen := 0, eidx := 0, status := .busy, phase := .eHdr })

/-- R200: an accepted CMD.APPEND adds the staged frame, normalised, at the tail, with a copy of the staged
payload, and makes the output invalid. -/
def Obligations.AppendAddsStagedFrame : Prop :=
  ∀ s : State, s.status = .empty ∨ s.status = .ready →
    s.aFlags.getLsbD 0 = s.modeWord.getLsbD 20 →
    ¬ (s.modeWord.getLsbD 20 = true ∧ 1 ≤ s.frames.length) →
    s.frames.length < s.params.frmCap → s.aPlen ≤ s.params.payCap →
    ∃ pay : Bytes, pay.length = s.aPlen ∧ (∀ k, k < s.aPlen → pay[k]? = some (s.apayByte k))
      ∧ exec .cmdAppend s = .next { s with
        frames := s.frames ++ [if s.aFlags.getLsbD 0 = true then MinorFrame.tp pay
          else MinorFrame.fr (if s.aFlags.getLsbD 1 = true then some s.aTs else none) s.aHdr
            (if s.aFlags.getLsbD 2 = true then some (s.aSync, s.aSfid) else none) pay]
        outValid := false, outLen := 0, status := .ready }

/-- R202: the checks of CMD.APPEND in their order, and the refusal each decides. -/
def Obligations.AppendChecksInOrder : Prop :=
  ∀ s : State,
    (s.status = .busy → exec .cmdAppend s = .next (s.refuse .locked))
    ∧ (s.status = .faulted → exec .cmdAppend s = .next (s.refuse .badState))
    ∧ (s.status = .empty ∨ s.status = .ready →
      (s.aTp ≠ s.tp → exec .cmdAppend s = .next (s.refuse .invariant))
      ∧ (s.aTp = s.tp → s.tp = true ∧ 1 ≤ s.frameCount →
          exec .cmdAppend s = .next (s.refuse .invariant))
      ∧ (s.aTp = s.tp → ¬ (s.tp = true ∧ 1 ≤ s.frameCount) → s.params.frmCap ≤ s.frameCount →
          exec .cmdAppend s = .next (s.refuse .capacity)))

/-- R196 and R207: which command is refused in which state, with which code (the reserved codes with BadCmd and
no other effect), and that a command in a cell marked "ok" is not refused: it gives the state of its own rule. -/
def Obligations.CommandAcceptanceTable : Prop :=
  ∀ s : State,
    (s.status = .busy → ∀ i ∈ [Instr.cmdNop, .cmdClear, .cmdDecode, .cmdEncode, .cmdAppend, .cmdReserved5,
      .cmdReserved6, .cmdReserved7], exec i s = .next (s.refuse .locked))
    ∧ (s.status ≠ .busy → exec .cmdNop s = .next s ∧ exec .cmdClear s = .next s.clear
      ∧ ∀ i ∈ [Instr.cmdReserved5, .cmdReserved6, .cmdReserved7], exec i s = .next (s.refuse .badCmd))
    ∧ (s.status = .empty → exec .cmdDecode s = .next s.startDecode
      ∧ (s.tp = false → exec .cmdEncode s = .next s.startEncode)
      ∧ (s.tp = true → exec .cmdEncode s = .next (s.refuse .badState)))
    ∧ (s.status = .ready → exec .cmdDecode s = .next (s.refuse .badState)
      ∧ exec .cmdEncode s = .next s.startEncode)
    ∧ (s.status = .faulted → ∀ i ∈ [Instr.cmdDecode, .cmdEncode, .cmdAppend],
      exec i s = .next (s.refuse .badState))
    ∧ (s.status = .empty ∨ s.status = .ready → s.appendRefusal = none →
      s.aPlen ≤ s.params.payCap → ∃ f, exec .cmdAppend s = .next { s.pushFrame f with
        outValid := false, outLen := 0, status := .ready })

/-- R232: a refusal writes REF_CODE if it is 0, and changes nothing else; REFUSED is then 1. -/
def Obligations.RefusalRecordsFirstCode : Prop :=
  ∀ (s : State) (c : RefCode),
    (s.refCode = none → s.refuse c = { s with refCode := some c })
    ∧ (s.refCode ≠ none → s.refuse c = s)
    ∧ (s.refuse c).refused = true

/-! Field and minor-frame decode. -/

/-- R120: FX.TS on a region of at least eight bytes gives what the codec says of the first eight, a timestamp of
TS_W bits (R9); a shorter region, or a rejection, is a MalformedBuffer. Only the answer changes. The answer wires, and running the
operation by itself, are the model's, here and below (log entries 9 and 10). -/
def Obligations.TimestampField : Prop :=
  ∀ (region : Bytes) (src : TsSrc) (s : State),
    (8 ≤ region.length → exec (.fxTs region src) s = .next { s with
      answer := match Config.tsDec s.params.tsW src (region.take 8) with
        | some v => .ts ⟨v.toNat⟩
        | none => .fail .malformedBuffer })
    ∧ (region.length < 8 → exec (.fxTs region src) s = .next { s with answer := .fail .malformedBuffer })

/-- R121: FX.HDR reads bytes 8 and 9 little-endian; a region of fewer than ten bytes is a MalformedBuffer (log
entries 9 and 10). -/
def Obligations.HeaderField : Prop :=
  ∀ (region : Bytes) (s : State),
    (∀ b8 b9 : Byte, region[8]? = some b8 → region[9]? = some b9 →
      exec (.fxHdr region) s = .next { s with answer := .hdr (BitVec.ofNat 16 (b8.toNat + 256 * b9.toNat)) })
    ∧ (region.length < 10 → exec (.fxHdr region) s = .next { s with answer := .fail .malformedBuffer })

/-- R122 and R123: FX.SS reads bytes 10 to 15; the sync word's bytes are, from the top, 11, 10, 13, 12, and
the SFID's 15, 14; a region of fewer than sixteen bytes is a MalformedBuffer (log entries 9 and 10). -/
def Obligations.SyncField : Prop :=
  ∀ (region : Bytes) (s : State),
    (∀ b10 b11 b12 b13 b14 b15 : Byte, region[10]? = some b10 → region[11]? = some b11 →
      region[12]? = some b12 → region[13]? = some b13 → region[14]? = some b14 → region[15]? = some b15 →
      exec (.fxSs region) s = .next { s with answer := .ss (b11 ++ b10 ++ b13 ++ b12) (b15 ++ b14) })
    ∧ (region.length < 16 → exec (.fxSs region) s = .next { s with answer := .fail .malformedBuffer })

/-- R124: FX.PAY gives the bytes of the region from byte `c` on, `len(region) - c` of them (log entries 9 and
10). -/
def Obligations.PayloadField : Prop :=
  ∀ (region : Bytes) (start : PayStart) (s : State), ∃ pay : Bytes,
    exec (.fxPay region start) s = .next { s with answer := .payload pay }
    ∧ pay.length = region.length - start.bytes
    ∧ ∀ k, k < pay.length → pay[k]? = region[start.bytes + k]?

/-- R126: MF.DEC.TP stores the region verbatim (log entries 9 and 10). -/
def Obligations.ThroughputRecordDecode : Prop :=
  ∀ (region : Bytes) (s : State),
    exec (.mfDecTp region) s = .next { s with answer := .frame (.tp region) }

/-- R127: MF.DEC.FR on a region of at least ten bytes gives the frame with the codec's timestamp, the
little-endian header and the bytes from 10 on, or fails where the codec rejects; a shorter region fails (log
entries 9 and 10). -/
def Obligations.FramedRecordDecode : Prop :=
  ∀ (region : Bytes) (src : TsSrc) (s : State),
    (∀ b8 b9 : Byte, region[8]? = some b8 → region[9]? = some b9 →
      exec (.mfDecFr region src) s = .next { s with
        answer := match Config.tsDec s.params.tsW src (region.take 8) with
          | some v => .frame (.fr (some ⟨v.toNat⟩) (b9 ++ b8) none (region.drop 10))
          | none => .fail .malformedBuffer })
    ∧ (region.length < 10 →
      exec (.mfDecFr region src) s = .next { s with answer := .fail .malformedBuffer })

/-- R128: MF.DEC.FRS on a region of at least sixteen bytes gives the frame with the codec's timestamp, the
header, the sync word, the SFID and the bytes from 16 on, or fails where the codec rejects; a shorter region
fails (log entries 9 and 10). -/
def Obligations.FramedRecordDecodeWithSync : Prop :=
  ∀ (region : Bytes) (src : TsSrc) (s : State),
    (∀ b8 b9 b10 b11 b12 b13 b14 b15 : Byte, region[8]? = some b8 → region[9]? = some b9 →
      region[10]? = some b10 → region[11]? = some b11 → region[12]? = some b12 →
      region[13]? = some b13 → region[14]? = some b14 → region[15]? = some b15 →
      exec (.mfDecFrs region src) s = .next { s with
        answer := match Config.tsDec s.params.tsW src (region.take 8) with
          | some v => .frame (.fr (some ⟨v.toNat⟩) (b9 ++ b8) (some (b11 ++ b10 ++ b13 ++ b12, b15 ++ b14))
              (region.drop 16))
          | none => .fail .malformedBuffer })
    ∧ (region.length < 16 →
      exec (.mfDecFrs region src) s = .next { s with answer := .fail .malformedBuffer })

/-! Minor-frame encode. -/

/-- R141 to R143: the three minor-frame encodes give the timestamp's eight bytes (of its TS_W bits, R9), the header little-endian,
the sync word and SFID big-endian and the payload, as the frame has them; a missing timestamp is a
ConfigurationError (log entries 9 and 10). -/
def Obligations.MinorFrameEncodes : Prop :=
  ∀ (hdr sfid : U16) (sync : U32) (payload : Bytes) (src : TsSrc) (s : State),
    exec (.mfEncTp payload) s = .next { s with answer := .bytes payload }
    ∧ (∀ t : TS, exec (.mfEncFr (some t) hdr payload src) s = .next { s with
        answer := .bytes ((Config.tsEnc s.params.tsW src (BitVec.ofNat s.params.tsW t.code)).toList
          ++ [hdr.extractLsb' 0 8, hdr.extractLsb' 8 8] ++ payload) })
    ∧ (∀ t : TS, exec (.mfEncFrs (some t) hdr sync sfid payload src) s = .next { s with
        answer := .bytes ((Config.tsEnc s.params.tsW src (BitVec.ofNat s.params.tsW t.code)).toList
          ++ [hdr.extractLsb' 0 8, hdr.extractLsb' 8 8]
          ++ [sync.extractLsb' 24 8, sync.extractLsb' 16 8, sync.extractLsb' 8 8, sync.extractLsb' 0 8]
          ++ [sfid.extractLsb' 8 8, sfid.extractLsb' 0 8] ++ payload) })
    ∧ exec (.mfEncFr none hdr payload src) s = .next { s with answer := .fail .configurationError }
    ∧ exec (.mfEncFrs none hdr sync sfid payload src) s = .next { s with answer := .fail .configurationError }

/-! The decode steps. -/

/-- R161: DP.MODE reads the mode word little-endian, sets the cursor to 4 and routes on bit 20; a buffer of
fewer than four bytes takes the fault MalformedBuffer, not wrapped, which leaves MODE_WORD as it was: where the
host had written it in EMPTY, that is the model's choice (log entry 23). -/
def Obligations.ModeWordStep : Prop :=
  ∀ s : State, s.phase = .dMode →
    (4 ≤ s.latchL → ∃ w : U32,
      w.toNat = (s.ibufByte 0).toNat + 2 ^ 8 * (s.ibufByte 1).toNat + 2 ^ 16 * (s.ibufByte 2).toNat
        + 2 ^ 24 * (s.ibufByte 3).toNat
      ∧ exec .dpMode s = .next { s with
          modeWord := w, offset := 4, phase := if w.getLsbD 20 = true then .dTp else .dFre })
    ∧ (s.latchL < 4 → exec .dpMode s = .next (s.takeDecodeFault .malformedBuffer none))

/-- R162: DP.DEC.TP makes the bytes `IBUF[4:L)` the one throughput frame, sets the cursor to L and ends the
decode in READY. -/
def Obligations.ThroughputBodyStep : Prop :=
  ∀ s : State, s.phase = .dTp → 4 ≤ s.latchL → s.latchL ≤ s.params.bufCap →
    ∃ pay : Bytes, pay.length = s.latchL - 4
      ∧ (∀ k, k < s.latchL - 4 → pay[k]? = some (s.ibufByte (4 + k)))
      ∧ exec .dpDecTp s = .next { s with
          frames := [.tp pay], offset := s.latchL, status := .ready, phase := .idle }

/-- R163: DP.DEC.FR enters the iteration where FPS was written, and otherwise takes the fault
ConfigurationError, not wrapped. -/
def Obligations.FramedEntryStep : Prop :=
  ∀ s : State, s.phase = .dFre →
    (s.latchPV = true → exec .dpDecFr s = .next { s with phase := .dFr })
    ∧ (s.latchPV = false → exec .dpDecFr s = .next (s.takeDecodeFault .configurationError none))

/-- R165 and R167: where a record fits, DP.DEC.FR.STEP answers a next state: with the frame that the
minor-frame decode of the record's bytes gives appended and the cursor moved past the record and its pad, or
with the wrapped fault taken at the record's first byte. For every codec, a record that decodes is appended. -/
def Obligations.RecordStep : Prop :=
  (∀ s : State, s.phase = .dFr → s.offset + (s.latchP + 10) ≤ s.latchL → s.latchL ≤ s.params.bufCap →
    exec .dpDecFrStep s = .next
      (match mfuDecode s.codec (s.ibufSlice s.offset (s.latchP + 10)) false s.latchX s.latchS with
      | .ok f => { s with
          frames := s.frames ++ [f]
          offset := s.offset + (s.latchP + 10) + (s.latchP + 10) % 2 }
      | .error _ => s.takeDecodeFault .offsetDecodeError (some .malformedBuffer))
    ∧ exec .dpDecFrStep s = decodeRecord s.codec s)
  ∧ (∀ (c : Codec) (s : State) (t : TS), s.offset + (s.latchP + 10) ≤ s.params.bufCap →
    (s.latchX = true → 6 ≤ s.latchP) → c.dec s.latchS (s.ibufSlice s.offset 8) = some t →
    ∃ f, decodeRecord c s = .next { s with
        frames := s.frames ++ [f]
        offset := s.offset + (s.latchP + 10) + (s.latchP + 10) % 2 }
      ∧ f.mode = .fr ∧ f.ts = some t ∧ f.ssPresent = s.latchX
      ∧ f.payload = s.ibufSlice (s.offset + if s.latchX then 16 else 10)
          (if s.latchX then s.latchP - 6 else s.latchP))

/-- R166: DP.DEC.FR.STOP ends the iteration in READY where no record fits and keeps cursor and frames; it is the
step selected there, and where a record fits the step selected is DP.DEC.FR.STEP. -/
def Obligations.IterationStopStep : Prop :=
  ∀ s : State, s.phase = .dFr →
    (s.latchL < s.offset + (s.latchP + 10) →
      exec .dpDecFrStop s = .next { s with status := .ready, phase := .idle }
      ∧ decode (.step s.phase s.more) = .ok .dpDecFrStop)
    ∧ (s.offset + (s.latchP + 10) ≤ s.latchL → decode (.step s.phase s.more) = .ok .dpDecFrStep)

/-- R224, R225 and R226: the entries of a decode fault and of an encode fault. Each records the fault where
none is recorded yet and leaves an earlier record as it is; a decode fault empties the frame store and keeps
MODE_WORD (R224 says "kept" and "else 0": log entry 23), an encode fault changes nothing of the packet and goes
back to RET. -/
def Obligations.FaultEntries : Prop :=
  ∀ (s : State) (kind : ErrKind) (cause : Option ErrKind) (index : Nat),
    (s.errKind = none → s.takeDecodeFault kind cause = { s with
      errKind := some kind, errCause := cause, errOffset := s.offset, errLen := s.latchL, errIndex := 0,
      frames := [], outValid := false, outLen := 0, status := .faulted, phase := .idle })
    ∧ (s.errKind ≠ none → s.takeDecodeFault kind cause = { s with
      frames := [], outValid := false, outLen := 0, status := .faulted, phase := .idle })
    ∧ (s.errKind = none → s.takeEncodeFault kind index = { s with
      errKind := some kind, errCause := none, errOffset := 0, errLen := 0, errIndex := index,
      outValid := false, outLen := 0, status := s.ret.status, phase := .idle })
    ∧ (s.errKind ≠ none → s.takeEncodeFault kind index = { s with
      outValid := false, outLen := 0, status := s.ret.status, phase := .idle })

/-! The encode steps. -/

/-- R182: DP.ENC.HDR writes the mode word little-endian to OBUF addresses 0 to 3 and routes on bit 20. -/
def Obligations.EncodeHeaderStep : Prop :=
  ∀ s : State, s.phase = .eHdr → ∃ t : State,
    exec .dpEncHdr s = .next t
    ∧ t = { s with
        obuf := t.obuf, outLen := 4, phase := if s.modeWord.getLsbD 20 = true then .eTp else .eFr }
    ∧ t.obufByte 0 = s.modeWord.extractLsb' 0 8 ∧ t.obufByte 1 = s.modeWord.extractLsb' 8 8
    ∧ t.obufByte 2 = s.modeWord.extractLsb' 16 8 ∧ t.obufByte 3 = s.modeWord.extractLsb' 24 8
    ∧ ∀ a, 4 ≤ a → t.obufByte a = s.obufByte a

/-- R183: DP.ENC.TP writes the one frame's payload from OBUF address 4 on, with no pad, and ends the encode;
an output longer than OUT_CAP takes the fault CapacityError with index 0. That no pad follows an odd payload is
the spec's inference, in R183's words "this is an inference, not an observed requirement" (D27, Q2). -/
def Obligations.EncodeThroughputStep : Prop :=
  ∀ (s : State) (pay : Bytes) (rest : List MinorFrame), s.phase = .eTp → s.frames = .tp pay :: rest →
    (4 + pay.length ≤ s.params.outCap → ∃ t : State,
      exec .dpEncTp s = .next t
      ∧ t = { s with
          obuf := t.obuf, outLen := 4 + pay.length, outValid := true, status := s.ret.status, phase := .idle }
      ∧ (∀ k, k < pay.length → some (t.obufByte (4 + k)) = pay[k]?)
      ∧ (∀ a, a < 4 ∨ 4 + pay.length ≤ a → t.obufByte a = s.obufByte a))
    ∧ (s.params.outCap < 4 + pay.length → exec .dpEncTp s = .next (s.takeEncodeFault .capacityError 0))

/-- R184: DP.ENC.FR.STEP writes the frame's encoding from OBUF address OUT_LEN on and, iff its length is odd,
one zero byte; a missing timestamp takes the fault ConfigurationError before the capacity is looked at, and
an output longer than OUT_CAP the fault CapacityError, each with index EIDX. -/
def Obligations.EncodeFrameStep : Prop :=
  ∀ (s : State) (ts : Option TS) (hdr : U16) (ss : Option (U32 × U16)) (pay : Bytes),
    s.phase = .eFr → s.frames[s.eidx]? = some (.fr ts hdr ss pay) →
    (ts = none → exec .dpEncFrStep s = .next (s.takeEncodeFault .configurationError s.eidx))
    ∧ (∀ (t : TS) (b : Bytes), ts = some t →
      b = (Config.tsEnc s.params.tsW s.latchS (BitVec.ofNat s.params.tsW t.code)).toList ++ le16Enc hdr
        ++ (match ss with
          | none => []
          | some (w, f) => be32Enc w ++ be16Enc f) ++ pay →
      (s.outLen + b.length + b.length % 2 ≤ s.params.outCap → ∃ u : State,
        exec .dpEncFrStep s = .next u
        ∧ u = { s with
            obuf := u.obuf, outLen := s.outLen + b.length + b.length % 2, eidx := s.eidx + 1 }
        ∧ (∀ k, k < b.length → some (u.obufByte (s.outLen + k)) = b[k]?)
        ∧ (b.length % 2 = 1 → u.obufByte (s.outLen + b.length) = 0x00#8)
        ∧ (∀ a, a < s.outLen ∨ s.outLen + b.length + b.length % 2 ≤ a → u.obufByte a = s.obufByte a))
      ∧ (s.params.outCap < s.outLen + b.length + b.length % 2 →
        exec .dpEncFrStep s = .next (s.takeEncodeFault .capacityError s.eidx)))

/-- R185: DP.ENC.FR.STOP ends the framed encode with the output valid and STATE back at RET. -/
def Obligations.EncodeStopStep : Prop :=
  ∀ s : State, s.phase = .eFr → s.eidx = s.frames.length →
    exec .dpEncFrStop s = .next { s with outValid := true, status := s.ret.status, phase := .idle }

/-! Read-out ports and registers. -/

/-- R204: RD.FRAME answers the fields of `frames[i]` in EMPTY and READY, and not valid for an index out of
range and in BUSY and FAULTED; it changes nothing but the model's answer wires (log entry 9). -/
def Obligations.ReadFramePort : Prop :=
  ∀ (s : State) (i : Nat),
    (∀ f, s.status = .empty ∨ s.status = .ready → s.frames[i]? = some f →
      exec (.rdFrame i) s = .next { s with
        answer := .frameView (some ⟨f.mode, f.ts, f.hdr, f.ss, f.payload.length⟩) })
    ∧ (s.frames.length ≤ i ∨ s.status = .busy ∨ s.status = .faulted →
      exec (.rdFrame i) s = .next { s with answer := .frameView none })

/-- R205: RD.PAY answers byte `k` of the payload of `frames[i]` where RD.FRAME(i) is valid and `k < plen`, and
not valid elsewhere; it changes nothing but the model's answer wires (log entry 9). -/
def Obligations.ReadPayloadPort : Prop :=
  ∀ (s : State) (i k : Nat),
    (∀ f b, s.status = .empty ∨ s.status = .ready → s.frames[i]? = some f → f.payload[k]? = some b →
      exec (.rdPay i k) s = .next { s with answer := .byte (some b) })
    ∧ (∀ f, s.frames[i]? = some f → f.payload.length ≤ k →
      exec (.rdPay i k) s = .next { s with answer := .byte none })
    ∧ (s.frames.length ≤ i ∨ s.status = .busy ∨ s.status = .faulted →
      exec (.rdPay i k) s = .next { s with answer := .byte none })

/-- R206: RD.OUT answers `OBUF[k]` where the output is valid, no command runs and `k < OUT_LEN`, and not valid
elsewhere; it changes nothing but the model's answer wires (log entry 9). -/
def Obligations.ReadOutPort : Prop :=
  ∀ (s : State) (k : Nat),
    (s.outValid = true → s.status ≠ .busy → k < s.outLen → s.outLen ≤ s.params.outCap →
      exec (.rdOut k) s = .next { s with answer := .byte (some (s.obufByte k)) })
    ∧ (s.outValid = false ∨ s.status = .busy ∨ s.outLen ≤ k →
      exec (.rdOut k) s = .next { s with answer := .byte none })

/-- R208: what each register write stores outside BUSY, by register number, with the refusals; a value wider
than its register is cut to the register's width (log entry 7). -/
def Obligations.RegisterWritesOutsideBusy : Prop :=
  ∀ (s : State) (v : Nat), s.status ≠ .busy →
    s.hostWrite 0 v = .next { s with ctrl := BitVec.ofNat 32 (v % 4) }
    ∧ s.hostWrite 1 v = .next { s with fps := v % 2 ^ s.params.offW, fpsSet := true }
    ∧ s.hostWrite 2 v = .next (if v % 2 ^ s.params.offW ≤ s.params.bufCap
        then { s with bufLen := v % 2 ^ s.params.offW } else s.refuse .capacity)
    ∧ s.hostWrite 5 v = .next (if s.status = .empty
        then { s with modeWord := BitVec.ofNat 32 v, outValid := false, outLen := 0 }
        else s.refuse .badState)
    ∧ (∀ n ∈ [4, 6, 7, 8, 9, 10, 11, 12, 13, 14, 15], s.hostWrite n v = .next s)
    ∧ s.hostWrite 16 v = .next { s with aFlags := BitVec.ofNat 3 v }
    ∧ s.hostWrite 17 v = .next { s with aTs := ⟨v % 2 ^ s.params.tsW⟩ }
    ∧ s.hostWrite 18 v = .next { s with aHdr := BitVec.ofNat 16 v }
    ∧ s.hostWrite 19 v = .next { s with aSync := BitVec.ofNat 32 v }
    ∧ s.hostWrite 20 v = .next { s with aSfid := BitVec.ofNat 16 v }
    ∧ s.hostWrite 21 v = .next (if v % 2 ^ s.params.offW ≤ s.params.payCap
        then { s with aPlen := v % 2 ^ s.params.offW } else s.refuse .capacity)

/-- R233: while BUSY every write to a writable register, to IBUF and to A_PAY is refused with Locked; a write
to a read-only register or to register 15 is ignored, and one to MODE_WORD is Locked (log entries 14, 15). -/
def Obligations.WritesLockedWhileBusy : Prop :=
  ∀ (s : State) (v a : Nat) (b : Byte), s.status = .busy →
    (∀ n ∈ [0, 1, 2, 5, 16, 17, 18, 19, 20, 21], s.hostWrite n v = .next (s.refuse .locked))
    ∧ (∀ n ∈ [4, 6, 7, 8, 9, 10, 11, 12, 13, 14, 15], s.hostWrite n v = .next s)
    ∧ s.writeIbuf a b = s.refuse .locked ∧ s.writeApay a b = s.refuse .locked

/-- R44, R42 and R208: outside BUSY a host byte write to IBUF or A_PAY at an address that exists changes that
byte and no other; at a larger address it is refused with Capacity, with no truncation (log entry 8). -/
def Obligations.ByteWritesChangeOneByte : Prop :=
  ∀ (s : State) (a : Nat) (b : Byte), s.status ≠ .busy →
    (a < s.params.bufCap → s.writeIbuf a b = { s with ibuf := (s.writeIbuf a b).ibuf }
      ∧ ∀ k, (s.writeIbuf a b).ibufByte k = if k = a then b else s.ibufByte k)
    ∧ (s.params.bufCap ≤ a → s.writeIbuf a b = s.refuse .capacity)
    ∧ (a < s.params.payCap → s.writeApay a b = { s with apay := (s.writeApay a b).apay }
      ∧ ∀ k, (s.writeApay a b).apayByte k = if k = a then b else s.apayByte k)
    ∧ (s.params.payCap ≤ a → s.writeApay a b = s.refuse .capacity)

/-- R35: the bits of STATUS, and the two output pins of R236. -/
def Obligations.StatusWordBits : Prop :=
  ∀ s : State,
    (s.statusWord.extractLsb' 0 2 = match s.status with
      | .empty => 0#2 | .ready => 1#2 | .busy => 2#2 | .faulted => 3#2)
    ∧ (s.statusWord.getLsbD 2 = true ↔ s.errKind ≠ none)
    ∧ (s.statusWord.getLsbD 3 = true ↔ s.refCode ≠ none)
    ∧ s.statusWord.getLsbD 4 = s.fpsSet ∧ s.statusWord.getLsbD 5 = s.outValid
    ∧ s.statusWord.getLsbD 6 = s.modeWord.getLsbD 20
    ∧ (s.statusWord.getLsbD 7 = true ↔ s.latchS = .ptp)
    ∧ s.statusWord.getLsbD 8 = s.latchX
    ∧ (∀ i, 9 ≤ i → s.statusWord.getLsbD i = false)
    ∧ (s.busyPin = true ↔ s.status = .busy) ∧ (s.errPin = true ↔ s.errKind ≠ none)

/-- R28 and R71: what a register read answers, by register number, and that no read changes anything but the
model's answer wires (log entry 9). -/
def Obligations.RegisterReads : Prop :=
  ∀ s : State,
    (∀ n v, (n, v) ∈ [(0, s.ctrl.toNat), (1, s.fps), (2, s.bufLen), (3, 0), (4, s.statusWord.toNat),
        (5, s.modeWord.toNat), (6, s.offset), (7, s.frames.length), (10, s.errOffset), (11, s.errLen),
        (12, s.errIndex), (14, s.outLen), (15, 0), (16, s.aFlags.toNat), (17, s.aTs.code),
        (18, s.aHdr.toNat), (19, s.aSync.toNat), (20, s.aSfid.toNat), (21, s.aPlen)] →
      s.hostRead n = .next { s with answer := .reg v })
    ∧ s.hostRead 8 = .next { s with answer := .reg (match s.errKind with
        | none => 0 | some .malformedBuffer => 1 | some .configurationError => 2
        | some .offsetDecodeError => 3 | some .capacityError => 4) }
    ∧ s.hostRead 13 = .next { s with answer := .reg (match s.refCode with
        | none => 0 | some .badState => 1 | some .locked => 2 | some .invariant => 3
        | some .capacity => 4 | some .badCmd => 5) }
    ∧ (s.errCause = none → s.hostRead 9 = .next { s with answer := .reg 0 })
    ∧ (s.errCause = some .malformedBuffer → s.hostRead 9 = .next { s with answer := .reg 1 })

/-! Laws of the minor-frame unit. -/

/-- R129: the payload length of a framed decode. -/
def Obligations.DecodedPayloadLength : Prop :=
  ∀ (c : Codec) (region : Bytes) (x : Bool) (src : TsSrc) (f : MinorFrame),
    mfuDecode c region false x src = .ok f →
    f.plen = region.length - (if x then 16 else 10) ∧ (if x then 16 else 10) ≤ region.length
      ∧ f.mode = .fr ∧ f.tsPresent = true ∧ f.ssPresent = x

/-- R130: the two framed decodes of one region: extraction moves the first six payload bytes into the sync
word and the SFID. -/
def Obligations.ExtractionTakesSixBytes : Prop :=
  ∀ (c : Codec) (region : Bytes) (src : TsSrc) (f : MinorFrame),
    mfDecFr c region src = .ok f → 16 ≤ region.length →
    ∃ g, mfDecFrs c region src = .ok g ∧ g.ts = f.ts ∧ g.hdr = f.hdr
      ∧ g.payload = f.payload.drop 6
      ∧ g.ss = some (syncWord (le16 (slice f.payload 0 2)) (le16 (slice f.payload 2 4)),
          le16 (slice f.payload 4 6))

/-- R145: a framed frame without sync group comes back from its encoding, where the codec does (R241). -/
def Obligations.FramedFrameRoundTrip : Prop :=
  ∀ (c : Codec) (t : TS) (hdr : U16) (pay : Bytes) (src : TsSrc),
    c.dec src (c.enc src t).toList = some t →
    ∃ b, mfEncFr c (some t) hdr pay src = .ok b ∧ b.length = 10 + pay.length
      ∧ mfDecFr c b src = .ok (.fr (some t) hdr none pay)

/-- R148: the sync word and the SFID come back with the two bytes of each 16-bit unit swapped, and the frame
is equal iff each unit has two equal bytes. -/
def Obligations.SyncGroupComesBackSwapped : Prop :=
  ∀ (c : Codec) (t : TS) (hdr sf : U16) (w : U32) (pay : Bytes) (src : TsSrc),
    c.dec src (c.enc src t).toList = some t →
    ∃ b, mfEncFrs c (some t) hdr w sf pay src = .ok b ∧ b.length = 16 + pay.length
      ∧ mfDecFrs c b src = .ok (.fr (some t) hdr
          (some (bswap16 (w.extractLsb' 16 16) ++ bswap16 (w.extractLsb' 0 16), bswap16 sf)) pay)
      ∧ (bswap16 (w.extractLsb' 16 16) ++ bswap16 (w.extractLsb' 0 16) = w ∧ bswap16 sf = sf ↔
          w.extractLsb' 24 8 = w.extractLsb' 16 8 ∧ w.extractLsb' 8 8 = w.extractLsb' 0 8
            ∧ sf.extractLsb' 8 8 = sf.extractLsb' 0 8)

/-- R147 and R150: re-encoding a decoded region keeps its length and its bytes from 8 on without extraction,
and with extraction keeps all but bytes 10 to 15, which come out pairwise swapped; the first eight bytes are
the codec's encoding of the decoded timestamp. -/
def Obligations.ReencodedRecord : Prop :=
  ∀ (c : Codec) (region : Bytes) (src : TsSrc) (x : Bool) (f : MinorFrame),
    mfuDecode c region false x src = .ok f →
    ∃ t b, c.dec src (region.take 8) = some t ∧ mfuEncode c f src = .ok b ∧ b.length = region.length
      ∧ b.take 8 = (c.enc src t).toList
      ∧ (∀ k, 8 ≤ k → (x = false ∨ k < 10 ∨ 16 ≤ k) → b[k]? = region[k]?)
      ∧ (x = true → b[10]? = region[11]? ∧ b[11]? = region[10]? ∧ b[12]? = region[13]?
        ∧ b[13]? = region[12]? ∧ b[14]? = region[15]? ∧ b[15]? = region[14]?)

/-! Laws of the segmenter and of the packet. -/

/-- R172 and R173: record `k` of a fault-free framed decode is at `4 + k * stride`, the number of records is
the closed form, and the cursor ends at `4 + n * stride`. -/
def Obligations.RecordPositionsAndCount : Prop :=
  ∀ (c : Codec) (buf : Bytes) (x : Bool) (p : Nat) (pv : Bool) (src : TsSrc) (mw : U32)
    (fr : List MinorFrame) (off : Nat),
    dpDecode c buf x p pv src = .ok mw fr off → mw.getLsbD 20 = false →
    off = 4 + fr.length * padded (p + 10)
    ∧ fr.length = (if buf.length < 4 + (p + 10) then 0
        else (buf.length - 4 - (p + 10)) / padded (p + 10) + 1)
    ∧ ∀ k f, fr[k]? = some f →
        mfuDecode c (slice buf (4 + k * padded (p + 10)) (4 + k * padded (p + 10) + (p + 10))) false x src
          = .ok f

/-- R191, with R180, R183 and R227: where the encode of a throughput packet succeeds, the packet comes back from
its encoding whatever the configuration, so a decode of those bytes ends in READY with a packet equal by R27; and
encoding what a throughput decode gave gives the buffer back where OUT_CAP can hold it (a longer one takes
CapacityError). For odd payloads this rests on the spec's inference that no pad follows (R183, D27, Q2). -/
def Obligations.ThroughputPacketRoundTrip : Prop :=
  (∀ (c : Codec) (mw : U32) (pay : Bytes) (src src' : TsSrc) (outCap p : Nat) (x pv : Bool) (out : Bytes),
    mw.getLsbD 20 = true → dpEncode c mw [.tp pay] src outCap = .ok out →
    dpDecode c out x p pv src' = .ok mw [.tp pay] out.length
    ∧ ∀ s : State, s.inputBuffer = out →
      (s.decodeEnd c).status = .ready ∧ dpEq (s.decodeEnd c).packet ⟨mw, src, [.tp pay]⟩ = true)
  ∧ (∀ (c : Codec) (buf : Bytes) (src src' : TsSrc) (outCap p : Nat) (x pv : Bool) (mw : U32)
      (fr : List MinorFrame) (off : Nat),
    dpDecode c buf x p pv src = .ok mw fr off → mw.getLsbD 20 = true → buf.length ≤ outCap →
    dpEncode c mw fr src' outCap = .ok buf)

/-- R190: a framed packet whose frames have timestamps, no sync group and one payload length comes back from
its encoding, where the codec does (R241): a decode of those bytes with the same source, that record size and no
extraction ends in READY with a packet equal by R27. -/
def Obligations.FramedPacketRoundTrip : Prop :=
  ∀ (c : Codec) (mw : U32) (fr : List MinorFrame) (src : TsSrc) (n outCap : Nat) (out : Bytes),
    mw.getLsbD 20 = false →
    (∀ f ∈ fr, ∃ t hdr pay, f = .fr (some t) hdr none pay ∧ pay.length = n
      ∧ c.dec src (c.enc src t).toList = some t) →
    dpEncode c mw fr src outCap = .ok out →
    dpDecode c out false n true src = .ok mw fr out.length
    ∧ ∀ s : State, s.inputBuffer = out → s.latchS = src → s.latchX = false → s.latchP = n → s.latchPV = true →
      (s.decodeEnd c).status = .ready ∧ dpEq (s.decodeEnd c).packet ⟨mw, src, fr⟩ = true

/-! The machine over all its steps. -/

/-- Every step from a sound state gives a sound state. Among the clauses of a sound state: every stored timestamp
is carried in TS_W bits, also A_TS and what the codec decodes (R9, R24, R28). -/
def Obligations.StepKeepsInvariant : Prop :=
  ∀ s t : State, s.Inv → step s = .next t → t.Inv

/-- R41: whenever the output is valid it is the encoding of the current packet, and no byte of it is an
unspecified one: every step from a sound state keeps this. -/
def Obligations.OutputStaysEncodingOfPacket : Prop :=
  ∀ s t : State, s.Inv → s.OutputWritten → s.OutputOk → step s = .next t →
    t.OutputWritten ∧ t.OutputOk

/-- R267, R271: a step from a sound state never stops, whatever the host does with registers that exist. -/
def Obligations.SoundStatesNeverStop : Prop :=
  ∀ s : State, s.Inv → (∀ op, s.host.head? = some op → op.namesRegister = true) →
    ∃ t, step s = .next t

/-- R155, R174 and R271: a decode that the host leaves alone ends within the bound, in the state of the
big-step rule. What a MODE_WORD that was never read holds after the fault is the model's choice (log entry 23). -/
def Obligations.DecodeEndsAsBigStep : Prop :=
  ∀ s : State, s.Inv → s.phase = .dMode → s.host = [] →
    ∃ n, n ≤ (if s.latchL < 4 then 1 else (s.latchL - 4) / 10 + 3)
      ∧ Host.Core.run Sys2Proof.core n s = .next (s.decodeEnd s.codec)
      ∧ (s.decodeEnd s.codec).phase = .idle

/-- R180, R186 and R271: an encode that the host leaves alone ends within the bound, with the bytes of the
big-step rule in OBUF from address 0 on, or with its fault; it changes nothing of the packet. -/
def Obligations.EncodeEndsAsBigStep : Prop :=
  ∀ s : State, s.Inv → s.phase = .eHdr → s.host = [] →
    ∃ n t, n ≤ s.frameCount + 2 ∧ Host.Core.run Sys2Proof.core n s = .next t
      ∧ match dpEncode s.codec s.modeWord s.frames s.latchS s.params.outCap with
        | .ok out => t = { s with
            obuf := Memory.setBytes s.obuf 0 out, outLen := out.length, outValid := true
            eidx := t.eidx, status := s.ret.status, phase := .idle }
        | .fault kind i => t = { s.takeEncodeFault kind i with obuf := t.obuf, eidx := t.eidx }

/-- R226: a recorded fault changes only by CMD.CLEAR outside BUSY or by reset. -/
def Obligations.FaultRecordIsSticky : Prop :=
  ∀ s t : State, step s = .next t → s.errKind ≠ none →
    (∀ rest, s.host ≠ .reset :: rest) →
    (∀ v rest, s.host = .write 3 v :: rest → v % 8 = 1 → s.status = .busy) →
    t.errKind = s.errKind ∧ t.errCause = s.errCause ∧ t.errOffset = s.errOffset ∧ t.errLen = s.errLen
      ∧ t.errIndex = s.errIndex

/-- R43: a step leaves the frame store as it is, appends one frame at the tail, or empties it. -/
def Obligations.FrameStoreIsAppendOnly : Prop :=
  ∀ s t : State, s.Inv → step s = .next t →
    t.frames = s.frames ∨ (∃ f, t.frames = s.frames ++ [f]) ∨ t.frames = []

/-- R48: FAULTED is entered only by a decode fault, from BUSY while a decode runs, and left only by CMD.CLEAR
or reset. -/
def Obligations.FaultedEntryAndExit : Prop :=
  ∀ s t : State, s.Inv → step s = .next t →
    (t.status = .faulted → s.status ≠ .faulted → s.status = .busy ∧ s.decoding ∧ t.errKind ≠ none
      ∧ t.frames = [])
    ∧ (s.status = .faulted → t.status ≠ .faulted →
      (∃ rest, s.host = .reset :: rest) ∨ ∃ v rest, s.host = .write 3 v :: rest ∧ v % 8 = 1)

/-- R61: IBUF changes only by a host byte write or reset, OBUF only by an encode step or reset, and the
parameters never. -/
def Obligations.BuffersChangeOnlyByTheirWriters : Prop :=
  ∀ s t : State, step s = .next t →
    t.params = s.params
    ∧ (t.ibuf = s.ibuf ∨ (∃ a b rest, s.host = .writeIbuf a b :: rest) ∨ ∃ rest, s.host = .reset :: rest)
    ∧ (t.apay = s.apay ∨ (∃ a b rest, s.host = .writeApay a b :: rest) ∨ ∃ rest, s.host = .reset :: rest)
    ∧ (t.obuf = s.obuf ∨ s.encoding ∨ ∃ rest, s.host = .reset :: rest)

/-- R62: a decode step depends on IBUF only through the bytes below L. -/
def Obligations.DecodeReadsOnlyValidInput : Prop :=
  ∀ (s : State) (m : Memory), s.Inv →
    (∀ a, a < s.latchL → ({ s with ibuf := m } : State).ibufByte a = s.ibufByte a) →
    ∀ i ∈ [Instr.dpMode, .dpDecTp, .dpDecFr, .dpDecFrStep, .dpDecFrStop], ∀ t : State,
      exec i s = .next t → exec i { s with ibuf := m } = .next { t with ibuf := m }

/-! Equality of packets. -/

/-- R27 and R26: two packets are equal iff their mode words are, all 32 bits, their frame counts are, and their
frames are field by field and in order; and nothing else of the machine takes part: two states with the same
mode word and frames hold equal packets. -/
def Obligations.PacketEquality : Prop :=
  (∀ p q : Packet, dpEq p q = true ↔
    p.modeWord = q.modeWord ∧ p.frames.length = q.frames.length
      ∧ ∀ (i : Nat) (f g : MinorFrame), p.frames[i]? = some f → q.frames[i]? = some g →
        f.mode = g.mode ∧ f.ts = g.ts ∧ f.hdr = g.hdr ∧ f.ss = g.ss ∧ f.payload = g.payload)
  ∧ (∀ s t : State, dpEq s.packet t.packet = true ↔ s.modeWord = t.modeWord ∧ s.frames = t.frames)
end

