-- ==== Sys2Proof/Laws/Memory.lean ====
section
/-! SUPPORT. The laws of a byte memory: reading after writing, the canonical form, the addresses held. -/

namespace Sys2Proof.Machine

/-- A byte memory's canonical form, by its head and tail. -/
theorem Memory.wf_cons (c : Host.Cell) (m : Memory) :
    Memory.wf (c :: m) = true ↔ (∀ d ∈ m, c.1 < d.1) ∧ Memory.wf m = true := by
  induction m generalizing c with
  | nil => simp [Memory.wf]
  | cons d m ih =>
    simp only [Memory.wf, Bool.and_eq_true, decide_eq_true_eq, List.mem_cons, forall_eq_or_imp]
    constructor
    · rintro ⟨h, hm⟩
      exact ⟨⟨h, fun e he => Nat.lt_trans h (((ih d).1 hm).1 e he)⟩, hm⟩
    · rintro ⟨⟨h, -⟩, hm⟩
      exact ⟨h, hm⟩

/-- Reading the written address gives the written byte. -/
@[simp] theorem Memory.get_set_same (m : Memory) (a : Nat) (b : Byte) :
    Memory.get (Memory.set m a b) a = some b := by
  induction m with
  | nil => simp [Memory.set, Memory.get]
  | cons c m ih =>
    obtain ⟨k, v⟩ := c
    simp only [Memory.set]
    split
    · simp [Memory.get]
    · split
      · simp [Memory.get]
      · rw [Memory.get, if_neg (by omega), ih]

/-- Reading another address gives what it gave before. -/
theorem Memory.get_set_other (m : Memory) (a a' : Nat) (b : Byte) (h : a' ≠ a) :
    Memory.get (Memory.set m a b) a' = Memory.get m a' := by
  induction m with
  | nil => simp [Memory.set, Memory.get, Ne.symm h]
  | cons c m ih =>
    obtain ⟨k, v⟩ := c
    simp only [Memory.set]
    split
    · simp [Memory.get, Ne.symm h]
    · split
      · next heq => subst heq; simp [Memory.get, Ne.symm h]
      · simp [Memory.get, ih]

/-- What a write lists: the written cell and cells that were listed. -/
theorem Memory.mem_set (m : Memory) (a : Nat) (b : Byte) (c : Host.Cell)
    (h : c ∈ Memory.set m a b) : c = (a, b) ∨ c ∈ m := by
  induction m with
  | nil => simpa [Memory.set] using h
  | cons d m ih =>
    obtain ⟨k, v⟩ := d
    simp only [Memory.set] at h
    split at h
    · simpa using h
    · split at h
      · rcases List.mem_cons.1 h with h | h
        · exact .inl h
        · exact .inr (List.mem_cons_of_mem _ h)
      · rcases List.mem_cons.1 h with h | h
        · exact .inr (h ▸ List.mem_cons_self ..)
        · exact (ih h).imp_right (List.mem_cons_of_mem _)

/-- A write keeps the canonical form. -/
theorem Memory.set_wf (m : Memory) (a : Nat) (b : Byte) (h : Memory.wf m = true) :
    Memory.wf (Memory.set m a b) = true := by
  induction m with
  | nil => simp [Memory.set, Memory.wf]
  | cons d m ih =>
    obtain ⟨k, v⟩ := d
    obtain ⟨hk, hm⟩ := (Memory.wf_cons _ _).1 h
    simp only [Memory.set]
    split
    · next hak =>
      refine (Memory.wf_cons _ _).2 ⟨?_, h⟩
      intro e he
      rcases List.mem_cons.1 he with rfl | he
      · exact hak
      · exact Nat.lt_trans hak (hk e he)
    · split
      · next heq => subst heq; exact (Memory.wf_cons _ _).2 ⟨hk, hm⟩
      · refine (Memory.wf_cons _ _).2 ⟨?_, ih hm⟩
        intro e he
        rcases Memory.mem_set m a b e he with rfl | he
        · simp only; omega
        · exact hk e he

/-- A write inside the space keeps the listed addresses inside it. -/
theorem Memory.set_within (m : Memory) (a cap : Nat) (b : Byte) (ha : a < cap)
    (h : Memory.within m cap) : Memory.within (Memory.set m a b) cap := by
  intro c hc
  rcases Memory.mem_set m a b c hc with rfl | hc
  · exact ha
  · exact h c hc

/-- Writing a sequence keeps the canonical form. -/
theorem Memory.setBytes_wf (m : Memory) (a : Nat) (bs : Bytes) (h : Memory.wf m = true) :
    Memory.wf (Memory.setBytes m a bs) = true := by
  induction bs generalizing m a with
  | nil => exact h
  | cons b bs ih => exact ih _ _ (Memory.set_wf m a b h)

/-- Writing a sequence inside the space keeps the listed addresses inside it. -/
theorem Memory.setBytes_within (m : Memory) (a cap : Nat) (bs : Bytes) (ha : a + bs.length ≤ cap)
    (h : Memory.within m cap) : Memory.within (Memory.setBytes m a bs) cap := by
  induction bs generalizing m a with
  | nil => exact h
  | cons b bs ih =>
    simp only [List.length_cons] at ha
    exact ih _ _ (by omega) (Memory.set_within m a cap b (by omega) h)

/-- Reading below a written sequence gives what it gave before. -/
theorem Memory.get_setBytes_below (m : Memory) (a k : Nat) (bs : Bytes) (h : k < a) :
    Memory.get (Memory.setBytes m a bs) k = Memory.get m k := by
  induction bs generalizing m a with
  | nil => rfl
  | cons b bs ih =>
    rw [Memory.setBytes, ih _ _ (by omega), Memory.get_set_other _ _ _ _ (by omega)]

/-- Reading above a written sequence gives what it gave before. -/
theorem Memory.get_setBytes_above (m : Memory) (a k : Nat) (bs : Bytes) (h : a + bs.length ≤ k) :
    Memory.get (Memory.setBytes m a bs) k = Memory.get m k := by
  induction bs generalizing m a with
  | nil => rfl
  | cons b bs ih =>
    simp only [List.length_cons] at h
    rw [Memory.setBytes, ih _ _ (by omega), Memory.get_set_other _ _ _ _ (by omega)]

/-- Reading inside a written sequence gives the written byte. -/
theorem Memory.get_setBytes_inside (m : Memory) (a i : Nat) (bs : Bytes) (h : i < bs.length) :
    Memory.get (Memory.setBytes m a bs) (a + i) = some bs[i] := by
  induction bs generalizing m a i with
  | nil => simp at h
  | cons b bs ih =>
    cases i with
    | zero => rw [Memory.setBytes, Memory.get_setBytes_below _ _ _ _ (by omega)]; simp
    | succ i =>
      simp only [List.length_cons] at h
      have := ih (Memory.set m a b) (a + 1) i (by omega)
      rw [Memory.setBytes, show a + (i + 1) = a + 1 + i by omega, this]
      rfl

/-- Writing a joined sequence is writing its parts one after the other. -/
theorem Memory.setBytes_append (m : Memory) (a : Nat) (xs ys : Bytes) :
    Memory.setBytes m a (xs ++ ys)
      = Memory.setBytes (Memory.setBytes m a xs) (a + xs.length) ys := by
  induction xs generalizing m a with
  | nil => rfl
  | cons x xs ih =>
    simp only [List.cons_append, Memory.setBytes, List.length_cons]
    rw [ih, show a + 1 + xs.length = a + (xs.length + 1) by omega]

/-- Reset lists nothing, which is canonical. -/
theorem reset_memory_wf (p : Params) (n : Nat) :
    Memory.wf (State.resetWith p n).ibuf = true ∧ Memory.wf (State.resetWith p n).obuf = true
      ∧ Memory.wf (State.resetWith p n).apay = true := ⟨rfl, rfl, rfl⟩

end Sys2Proof.Machine
end

