-- ==== Sys2Proof/Laws/Operands.lean ====
section
/-! SUPPORT. The laws of the operand forms: slices, byte order, the sync assembly, padding. -/

namespace Sys2Proof.Machine

/-! Slices (00_scope.md R11). -/

theorem length_slice (b : Bytes) (i j : Nat) : (slice b i j).length = min j b.length - i := by
  simp [slice]

theorem length_sliceFrom (b : Bytes) (i : Nat) : (sliceFrom b i).length = b.length - i := by
  simp [sliceFrom]

theorem getElem?_slice (b : Bytes) (i j k : Nat) (h : i + k < j) : (slice b i j)[k]? = b[i + k]? := by
  simp [slice, List.getElem?_drop, h]

/-- A two-byte slice is its two bytes. -/
theorem slice_two (b : Bytes) (i : Nat) (x y : Byte) (hx : b[i]? = some x) (hy : b[i + 1]? = some y) :
    slice b i (i + 2) = [x, y] := by
  obtain ⟨hi, -⟩ := List.getElem?_eq_some_iff.1 hy
  refine List.ext_getElem? fun k => ?_
  rcases k with _ | _ | k
  · rw [getElem?_slice _ _ _ _ (by omega)]; simpa using hx
  · rw [getElem?_slice _ _ _ _ (by omega)]; simpa using hy
  · rw [List.getElem?_eq_none (by rw [length_slice]; omega)]; simp

/-! Byte order (00_scope.md R12). -/

theorem le16_pair (x y : Byte) : le16 [x, y] = y ++ x := by
  apply BitVec.eq_of_toNat_eq
  have := x.isLt
  have := y.isLt
  simp only [le16, leNat, BitVec.toNat_ofNat, BitVec.toNat_append, Nat.shiftLeft_eq]
  rw [Nat.mul_comm y.toNat, ← Nat.two_pow_add_eq_or_of_lt x.isLt]
  omega

theorem le32_quad (a b c d : Byte) : le32 [a, b, c, d] = d ++ c ++ b ++ a := by
  apply BitVec.eq_of_toNat_eq
  have ha := a.isLt
  have hb := b.isLt
  have hc := c.isLt
  have hd := d.isLt
  simp only [le32, leNat, BitVec.toNat_ofNat, BitVec.toNat_append, Nat.shiftLeft_eq]
  rw [Nat.mul_comm _ (2 ^ 8), Nat.mul_comm _ (2 ^ 8), Nat.mul_comm _ (2 ^ 8),
    ← Nat.two_pow_add_eq_or_of_lt hc, ← Nat.two_pow_add_eq_or_of_lt hb, ← Nat.two_pow_add_eq_or_of_lt ha]
  omega

/-- The low byte of a joined pair of bytes. -/
theorem extract_low (x y : Byte) : (y ++ x).extractLsb' 0 8 = x := by
  apply BitVec.eq_of_getLsbD_eq
  intro i hi
  rw [BitVec.getLsbD_extractLsb', BitVec.getLsbD_append, if_pos (by omega), decide_eq_true hi,
    Bool.true_and, Nat.zero_add]

/-- The high byte of a joined pair of bytes. -/
theorem extract_high (x y : Byte) : (y ++ x).extractLsb' 8 8 = y := by
  apply BitVec.eq_of_getLsbD_eq
  intro i hi
  rw [BitVec.getLsbD_extractLsb', BitVec.getLsbD_append, if_neg (by omega), decide_eq_true hi,
    Bool.true_and, Nat.add_sub_cancel_left]

/-- A value is its high part above its low part. -/
theorem extract_append {m n : Nat} (v : BitVec (m + n)) :
    v.extractLsb' n m ++ v.extractLsb' 0 n = v := by
  apply BitVec.eq_of_getLsbD_eq
  intro i hi
  simp only [BitVec.getLsbD_append, BitVec.getLsbD_extractLsb']
  split
  · next h => rw [decide_eq_true h, Bool.true_and, Nat.zero_add]
  · next h =>
    rw [decide_eq_true (by omega), Bool.true_and]
    congr 1
    omega

theorem le16Enc_le16 (x y : Byte) : le16Enc (le16 [x, y]) = [x, y] := by
  rw [le16_pair, le16Enc, extract_low, extract_high]

theorem be16Enc_le16 (x y : Byte) : be16Enc (le16 [x, y]) = [y, x] := by
  rw [le16_pair, be16Enc, extract_low, extract_high]

theorem le16_le16Enc (v : U16) : le16 (le16Enc v) = v := by
  rw [le16Enc, le16_pair]
  exact extract_append (m := 8) (n := 8) v

theorem le16_be16Enc (v : U16) : le16 (be16Enc v) = bswap16 v := by
  rw [be16Enc, le16_pair, bswap16]

theorem le32_le32Enc (v : U32) : le32 (le32Enc v) = v := by
  rw [le32Enc, le32_quad]
  apply BitVec.eq_of_getLsbD_eq
  intro i hi
  simp only [BitVec.getLsbD_append, BitVec.getLsbD_extractLsb']
  repeat' split
  all_goals
    rw [decide_eq_true (by omega), Bool.true_and]
    congr 1
    omega

/-- The bytes of a mode word read from four bytes are those bytes (30_encoding.md R91). -/
theorem le32Enc_le32 (a b c d : Byte) : le32Enc (le32 [a, b, c, d]) = [a, b, c, d] := by
  rw [le32_quad, le32Enc]
  simp only [List.cons.injEq, and_true]
  refine ⟨?_, ?_, ?_, ?_⟩
  all_goals
    apply BitVec.eq_of_getLsbD_eq
    intro i hi
    rw [BitVec.getLsbD_extractLsb', decide_eq_true hi, Bool.true_and]
    simp only [BitVec.getLsbD_append]
    repeat' split
    all_goals first
      | (exfalso; omega)
      | (congr 1; omega)

/-- The sync assembly puts the first unit above the second (40_minor_frame_decode.md R123). -/
theorem syncWord_eq_append (msw lsw : U16) : syncWord msw lsw = msw ++ lsw := by
  apply BitVec.eq_of_getLsbD_eq
  intro i hi
  simp only [syncWord, BitVec.getLsbD_or, BitVec.getLsbD_setWidth, BitVec.getLsbD_shiftLeft,
    BitVec.getLsbD_append]
  by_cases h : i < 16
  · simp [h, hi]
  · simp [h, hi, BitVec.getLsbD_of_ge lsw i (by omega)]
    omega

/-! Padding (20_memory.md R68). -/

theorem length_padBytes (n : Nat) : (padBytes n).length = n % 2 := by
  unfold padBytes
  split <;> simp <;> omega

theorem padded_even (n : Nat) : padded n % 2 = 0 := by unfold padded; omega

theorem le_padded (n : Nat) : n ≤ padded n := by unfold padded; omega

/-- A stride is at least ten (42_data_packet_decode.md R174). -/
theorem stride_ge (s : State) : 10 ≤ s.stride := by
  have := le_padded s.rs
  simp only [State.stride, State.rs, recSize, recHdrBytes] at *
  omega

/-! The timestamp codec (00_scope.md R9, 60_exceptions.md R240). -/

@[simp] theorem TS.code_ofBits {w : Nat} (b : BitVec w) : (TS.ofBits b).code = b.toNat := rfl

/-- A timestamp that fits is what its bits carry (60_exceptions.md R241). -/
theorem TS.ofBits_bits {w : Nat} {t : TS} (h : t.code < 2 ^ w) : TS.ofBits (t.bits w) = t := by
  cases t
  simp only [TS.ofBits, TS.bits, BitVec.toNat_ofNat, TS.mk.injEq]
  exact Nat.mod_eq_of_lt h

/-- What the codec of an instance decodes is carried in TS_W bits (00_scope.md R9). -/
theorem tsCodec_dec_fits {w : Nat} {src : TsSrc} {b : Bytes} {t : TS}
    (h : (tsCodec w).dec src b = some t) : t.code < 2 ^ w := by
  obtain ⟨v, -, rfl⟩ := Option.map_eq_some_iff.1 h
  exact v.isLt

/-- A write of A_TS stores a timestamp of TS_W bits (10_state.md R42). -/
theorem truncTs_fits (s : State) (v : Nat) : (s.truncTs v).code < 2 ^ s.params.tsW :=
  Nat.mod_lt _ (Nat.two_pow_pos _)

/-- The codec is fixed by the parameters (60_exceptions.md R240). -/
theorem State.codec_eq {s t : State} (h : t.params = s.params) : t.codec = s.codec := by
  simp [State.codec, h]

@[simp] theorem length_le32Enc (v : U32) : (le32Enc v).length = 4 := rfl

@[simp] theorem length_le16Enc (v : U16) : (le16Enc v).length = 2 := rfl

@[simp] theorem length_be32Enc (v : U32) : (be32Enc v).length = 4 := rfl

@[simp] theorem length_be16Enc (v : U16) : (be16Enc v).length = 2 := rfl

end Sys2Proof.Machine
end

