-- ==== Sys2Proof/Laws/Ops.lean ====
section
/-! SUPPORT. One lemma per shared operation that says once what it can do: the buffers, the refusal and the
fault entries, the field and minor-frame operations. -/

namespace Sys2Proof.Machine

/-! The buffers. -/

@[simp] theorem length_ibufSlice (s : State) (a n : Nat) : (s.ibufSlice a n).length = n := by
  simp [State.ibufSlice]

@[simp] theorem length_obufSlice (s : State) (a n : Nat) : (s.obufSlice a n).length = n := by
  simp [State.obufSlice]

@[simp] theorem length_inputBuffer (s : State) : s.inputBuffer.length = s.latchL := by
  simp [State.inputBuffer]

theorem getElem?_ibufSlice (s : State) (a n k : Nat) (h : k < n) :
    (s.ibufSlice a n)[k]? = some (s.ibufByte (a + k)) := by
  simp [State.ibufSlice, h]

theorem getElem?_obufSlice (s : State) (a n k : Nat) (h : k < n) :
    (s.obufSlice a n)[k]? = some (s.obufByte (a + k)) := by
  simp [State.obufSlice, h]

/-- A slice of the valid input buffer is the bytes IBUF holds there. -/
theorem slice_inputBuffer (s : State) (i n : Nat) (h : i + n ≤ s.latchL) :
    slice s.inputBuffer i (i + n) = s.ibufSlice i n := by
  refine List.ext_getElem? fun k => ?_
  by_cases hk : k < n
  · rw [getElem?_slice _ _ _ _ (by omega), getElem?_ibufSlice _ _ _ _ hk, State.inputBuffer,
      getElem?_ibufSlice _ _ _ _ (by omega), Nat.zero_add]
  · rw [List.getElem?_eq_none (by rw [length_slice, length_inputBuffer]; omega),
      List.getElem?_eq_none (by rw [length_ibufSlice]; omega)]

theorem sliceFrom_inputBuffer (s : State) (i : Nat) :
    sliceFrom s.inputBuffer i = s.ibufSlice i (s.latchL - i) := by
  refine List.ext_getElem? fun k => ?_
  by_cases hk : k < s.latchL - i
  · rw [sliceFrom, List.getElem?_drop, getElem?_ibufSlice _ _ _ _ hk, State.inputBuffer,
      getElem?_ibufSlice _ _ _ _ (by omega), Nat.zero_add]
  · rw [List.getElem?_eq_none (by rw [length_sliceFrom, length_inputBuffer]; omega),
      List.getElem?_eq_none (by rw [length_ibufSlice]; omega)]

theorem ibufSlice_four (s : State) (a : Nat) :
    s.ibufSlice a 4 = [s.ibufByte a, s.ibufByte (a + 1), s.ibufByte (a + 2), s.ibufByte (a + 3)] := rfl

/-- A read of IBUF answers the bytes, or stops where an address does not exist (00_scope.md R13). -/
theorem memRead_eq_some {s : State} {a n : Nat} {b : Bytes} :
    s.memRead a n = some b ↔ a + n ≤ s.params.bufCap ∧ b = s.ibufSlice a n := by
  unfold State.memRead
  split <;> simp_all [eq_comm]

/-- Writing to OBUF writes the bytes and no others (00_scope.md R13). -/
theorem obufByte_memWrite (s : State) (a k : Nat) (v : Bytes) :
    (s.memWrite a v).obufByte k
      = if h : a ≤ k ∧ k < a + v.length then v[k - a]'(by omega) else s.obufByte k := by
  unfold State.obufByte State.memWrite
  split
  · next h =>
    obtain ⟨i, rfl⟩ := Nat.exists_eq_add_of_le h.1
    simp [Memory.get_setBytes_inside _ _ _ _ (show i < v.length by omega)]
  · next h =>
    by_cases hk : k < a
    · simp [Memory.get_setBytes_below _ _ _ _ hk]
    · simp [Memory.get_setBytes_above _ _ _ _ (show a + v.length ≤ k by omega)]

/-- The output after an append of bytes at its end. -/
theorem obufSlice_memWrite (s : State) (n : Nat) (v : Bytes) :
    (s.memWrite n v).obufSlice 0 (n + v.length) = s.obufSlice 0 n ++ v := by
  refine List.ext_getElem? fun k => ?_
  by_cases hk : k < n + v.length
  · rw [getElem?_obufSlice _ _ _ _ hk, Nat.zero_add, obufByte_memWrite]
    by_cases hn : k < n
    · rw [List.getElem?_append_left (by simpa using hn), getElem?_obufSlice _ _ _ _ hn, Nat.zero_add,
        dif_neg (by omega)]
    · rw [List.getElem?_append_right (by simpa using hn), dif_pos (by omega), length_obufSlice,
        List.getElem?_eq_getElem (by omega)]
  · rw [List.getElem?_eq_none (by simpa using hk),
      List.getElem?_eq_none (by simpa using hk)]

/-- The bytes of the output slice depend on OBUF and the reset count alone. -/
theorem obufSlice_congr {s t : State} (h : t.obuf = s.obuf) (hr : t.resets = s.resets) (a n : Nat) :
    t.obufSlice a n = s.obufSlice a n := by
  simp [State.obufSlice, State.obufByte, h, hr]

/-- The staged payload (44_host_commands.md R200). -/
theorem stagedPayload_eq_some {s : State} {b : Bytes} :
    s.stagedPayload = some b ↔
      s.aPlen ≤ s.params.payCap ∧ b = (List.range' 0 s.aPlen).map s.apayByte := by
  unfold State.stagedPayload
  split <;> simp_all [eq_comm]

/-! Refusals and faults. -/

/-- A refusal changes REF_CODE alone (60_exceptions.md R232). -/
theorem refuse_eq (s : State) (c : RefCode) :
    s.refuse c = { s with refCode := some (s.refCode.getD c) } := by
  unfold State.refuse
  cases s.refCode <;> rfl

/-- The first fault wins (60_exceptions.md R226). -/
theorem onFirstFault_of_none {α : Type} {s : State} (h : s.errKind = none) (new old : α) :
    s.onFirstFault new old = new := by
  simp [State.onFirstFault, h]

theorem onFirstFault_of_some {α : Type} {s : State} (h : s.errKind ≠ none) (new old : α) :
    s.onFirstFault new old = old := by
  unfold State.onFirstFault
  cases hk : s.errKind
  · exact absurd hk h
  · rfl

/-! Field operations. -/

theorem fxTs_eq (c : Codec) (region : Bytes) (src : TsSrc) (h : 8 ≤ region.length) :
    fxTs c region src = match c.dec src (region.take 8) with
      | none => .error .malformedBuffer
      | some t => .ok t := by
  have hs : slice region 0 8 = region.take 8 := by simp [slice]
  have hn : ¬ region.length < tsBytes := by simpa [tsBytes] using h
  cases hd : c.dec src (region.take 8) <;> simp [fxTs, hn, hs, hd]

theorem fxTs_short (c : Codec) (region : Bytes) (src : TsSrc) (h : region.length < 8) :
    fxTs c region src = .error .malformedBuffer := by
  simp [fxTs, tsBytes, h]

theorem fxHdr_eq (region : Bytes) (h : 10 ≤ region.length) :
    fxHdr region = .ok (le16 (slice region 8 10)) := by
  simp [fxHdr, recHdrBytes, Nat.not_lt.2 h]

theorem fxSs_eq (region : Bytes) (h : 16 ≤ region.length) :
    fxSs region = .ok (syncWord (le16 (slice region 10 12)) (le16 (slice region 12 14)),
      le16 (slice region 14 16)) := by
  simp [fxSs, recHdrBytes, ssBytes, Nat.not_lt.2 h]

/-- A field operation raises nothing but MalformedBuffer (60_exceptions.md R242). -/
theorem fxTs_error {c : Codec} {region : Bytes} {src : TsSrc} {k : ErrKind}
    (h : fxTs c region src = .error k) : k = .malformedBuffer := by
  unfold fxTs at h
  repeat' split at h
  all_goals first | exact (Except.error.inj h).symm | cases h

theorem fxHdr_error {region : Bytes} {k : ErrKind} (h : fxHdr region = .error k) :
    k = .malformedBuffer := by
  unfold fxHdr at h
  split at h
  · exact (Except.error.inj h).symm
  · cases h

theorem fxSs_error {region : Bytes} {k : ErrKind} (h : fxSs region = .error k) :
    k = .malformedBuffer := by
  unfold fxSs at h
  split at h
  · exact (Except.error.inj h).symm
  · cases h

/-! The minor-frame decode. -/

/-- The bytes of a framed record before its payload: 10, or 16 with extraction. -/
def headerBytes (x : Bool) : Nat := if x then 16 else 10

/-- The sync group of a framed record. -/
def ssField (x : Bool) (region : Bytes) : Option (U32 × U16) :=
  if x then
    some (syncWord (le16 (slice region 10 12)) (le16 (slice region 12 14)), le16 (slice region 14 16))
  else none

/-- What a framed minor-frame decode gives on a region that is long enough (40_minor_frame_decode.md R127,
R128). -/
theorem mfuDecode_framed (c : Codec) (region : Bytes) (x : Bool) (src : TsSrc)
    (h : headerBytes x ≤ region.length) :
    mfuDecode c region false x src = match c.dec src (region.take 8) with
      | none => .error .malformedBuffer
      | some t => .ok (.fr (some t) (le16 (slice region 8 10)) (ssField x region)
          (region.drop (headerBytes x))) := by
  cases x
  · have h10 : 10 ≤ region.length := h
    simp only [mfuDecode, mfDecFr, fxTs_eq c region src (by omega), fxHdr_eq region h10]
    cases c.dec src (region.take 8) <;> rfl
  · have h16 : 16 ≤ region.length := h
    simp only [mfuDecode, mfDecFrs, fxTs_eq c region src (by omega), fxHdr_eq region (by omega),
      fxSs_eq region h16]
    cases c.dec src (region.take 8) <;> rfl

/-- A framed minor-frame decode raises nothing but MalformedBuffer (40_minor_frame_decode.md R132). -/
theorem mfuDecode_error {c : Codec} {region : Bytes} {tp x : Bool} {src : TsSrc} {k : ErrKind}
    (h : mfuDecode c region tp x src = .error k) : k = .malformedBuffer := by
  unfold mfuDecode mfDecFrs mfDecFr at h
  repeat' split at h
  all_goals cases h
  all_goals first
    | exact fxTs_error (by assumption)
    | exact fxHdr_error (by assumption)
    | exact fxSs_error (by assumption)

/-- A framed minor-frame decode of a region that is too short fails. -/
theorem mfuDecode_short (c : Codec) (region : Bytes) (x : Bool) (src : TsSrc)
    (h : region.length < headerBytes x) :
    mfuDecode c region false x src = .error .malformedBuffer := by
  cases hd : mfuDecode c region false x src with
  | error k => rw [mfuDecode_error hd]
  | ok f =>
    exfalso
    cases x
    · have hh : fxHdr region = .error .malformedBuffer := by
        simp [fxHdr, recHdrBytes, show region.length < 10 from h]
      cases ht : fxTs c region src <;> simp [mfuDecode, mfDecFr, ht, hh] at hd
    · have hs : fxSs region = .error .malformedBuffer := by
        simp [fxSs, recHdrBytes, ssBytes, show region.length < 16 from h]
      cases ht : fxTs c region src <;> cases hh : fxHdr region <;>
        simp [mfuDecode, mfDecFrs, ht, hh, hs] at hd

/-- A framed minor-frame decode that succeeds: the region is long enough, the codec accepts its first eight
bytes, and the frame is the one of 40_minor_frame_decode.md R127 and R128. -/
theorem mfuDecode_ok {c : Codec} {region : Bytes} {x : Bool} {src : TsSrc} {f : MinorFrame}
    (h : mfuDecode c region false x src = .ok f) :
    headerBytes x ≤ region.length ∧ ∃ t, c.dec src (region.take 8) = some t
      ∧ f = .fr (some t) (le16 (slice region 8 10)) (ssField x region) (region.drop (headerBytes x)) := by
  by_cases hl : headerBytes x ≤ region.length
  · rw [mfuDecode_framed c region x src hl] at h
    cases ht : c.dec src (region.take 8) with
    | none => simp [ht] at h
    | some t => simp [ht] at h; exact ⟨hl, t, rfl, h.symm⟩
  · rw [mfuDecode_short c region x src (by omega)] at h
    cases h

/-- The timestamp of a decoded frame is carried in TS_W bits (10_state.md R24). -/
theorem mfuDecode_ts_fits {s : State} {region : Bytes} {x : Bool} {src : TsSrc} {f : MinorFrame}
    (h : mfuDecode s.codec region false x src = .ok f) : s.params.fitsTs f.ts = true := by
  obtain ⟨-, u, hu, rfl⟩ := mfuDecode_ok h
  exact decide_eq_true (tsCodec_dec_fits hu)

/-! The minor-frame encode. -/

/-- The sync group of an encoded record (41_minor_frame_encode.md R143). -/
def ssBytesOf : Option (U32 × U16) → Bytes
  | none => []
  | some (w, f) => be32Enc w ++ be16Enc f

/-- What the minor-frame encode of a framed frame gives (41_minor_frame_encode.md R142, R143). -/
theorem mfuEncode_framed (c : Codec) (ts : Option TS) (hdr : U16) (ss : Option (U32 × U16))
    (pay : Bytes) (src : TsSrc) :
    mfuEncode c (.fr ts hdr ss pay) src = match ts with
      | none => .error .configurationError
      | some t => .ok ((c.enc src t).toList ++ le16Enc hdr ++ ssBytesOf ss ++ pay) := by
  rcases ss with _ | ⟨w, f⟩ <;> cases ts <;> simp [mfuEncode, mfEncFr, mfEncFrs, ssBytesOf]

/-- The minor-frame encode raises nothing but ConfigurationError (60_exceptions.md R228). -/
theorem mfuEncode_error {c : Codec} {f : MinorFrame} {src : TsSrc} {k : ErrKind}
    (h : mfuEncode c f src = .error k) : k = .configurationError := by
  cases f with
  | tp pay => simp [mfuEncode] at h
  | fr ts hdr ss pay =>
    rw [mfuEncode_framed] at h
    cases ts <;> simp at h
    exact h.symm

/-- The length of an encoded framed frame. -/
theorem mfuEncode_length {c : Codec} {ts : Option TS} {hdr : U16} {ss : Option (U32 × U16)}
    {pay : Bytes} {src : TsSrc} {b : Bytes} (h : mfuEncode c (.fr ts hdr ss pay) src = .ok b) :
    b.length = headerBytes ss.isSome + pay.length := by
  rw [mfuEncode_framed] at h
  cases ts <;> simp at h
  subst h
  rcases ss with _ | ⟨w, f⟩ <;> simp [ssBytesOf, headerBytes] <;> omega

end Sys2Proof.Machine
end

