-- ==== Sys2Proof/Laws/Packet.lean ====
section
/-! SUPPORT. What the equalities of 10_state.md R26 and R27 say. -/

namespace Sys2Proof.Machine

@[simp] theorem State.packet_modeWord (s : State) : s.packet.modeWord = s.modeWord := rfl
@[simp] theorem State.packet_src (s : State) : s.packet.src = s.latchS := rfl
@[simp] theorem State.packet_frames (s : State) : s.packet.frames = s.frames := rfl

theorem mfEq_iff_fields (f g : MinorFrame) : mfEq f g = true ↔
    f.mode = g.mode ∧ f.ts = g.ts ∧ f.hdr = g.hdr ∧ f.ss = g.ss ∧ f.payload = g.payload := by
  simp [mfEq, and_assoc]

/-- Only well-formed frames exist, so frames with equal fields are equal (10_state.md R22, R26). -/
theorem mfEq_iff_eq (f g : MinorFrame) : mfEq f g = true ↔ f = g := by
  rw [mfEq_iff_fields]
  cases f <;> cases g <;> simp [MinorFrame.mode, MinorFrame.ts, MinorFrame.hdr, MinorFrame.ss,
    MinorFrame.payload]

theorem framesEq_refl (fs : List MinorFrame) : framesEq fs fs = true := by
  induction fs with
  | nil => rfl
  | cons f fs ih => simp [framesEq, ih, (mfEq_iff_eq f f).2 rfl]

theorem dpEq_of_eq {p q : Packet} (hw : p.modeWord = q.modeWord) (hf : p.frames = q.frames) :
    dpEq p q = true := by
  simp [dpEq, hw, hf, framesEq_refl]

end Sys2Proof.Machine
end

