-- ==== Sys2Proof/Laws/PerInstr.lean ====
section
/-! SUPPORT. Statements for all operations, one lemma per constructor of `Instr`. -/

namespace Sys2Proof.Laws

/-- Some selecting wires select the operation: every row of the opcode table can be reached through the
decoder (30_encoding.md R106). -/
def Selected.Statement (i : Instr) : Prop := ∃ sel : Selector, decode sel = .ok i

theorem Selected.cmdNop :
    Selected.Statement .cmdNop := ⟨encode .cmdNop, rfl⟩

theorem Selected.cmdClear :
    Selected.Statement .cmdClear := ⟨encode .cmdClear, rfl⟩

theorem Selected.cmdDecode :
    Selected.Statement .cmdDecode := ⟨encode .cmdDecode, rfl⟩

theorem Selected.cmdEncode :
    Selected.Statement .cmdEncode := ⟨encode .cmdEncode, rfl⟩

theorem Selected.cmdAppend :
    Selected.Statement .cmdAppend := ⟨encode .cmdAppend, rfl⟩

theorem Selected.cmdReserved5 :
    Selected.Statement .cmdReserved5 := ⟨encode .cmdReserved5, rfl⟩

theorem Selected.cmdReserved6 :
    Selected.Statement .cmdReserved6 := ⟨encode .cmdReserved6, rfl⟩

theorem Selected.cmdReserved7 :
    Selected.Statement .cmdReserved7 := ⟨encode .cmdReserved7, rfl⟩

theorem Selected.dpMode :
    Selected.Statement .dpMode := ⟨encode .dpMode, rfl⟩

theorem Selected.dpDecTp :
    Selected.Statement .dpDecTp := ⟨encode .dpDecTp, rfl⟩

theorem Selected.dpDecFr :
    Selected.Statement .dpDecFr := ⟨encode .dpDecFr, rfl⟩

theorem Selected.dpDecFrStep :
    Selected.Statement .dpDecFrStep := ⟨encode .dpDecFrStep, rfl⟩

theorem Selected.dpDecFrStop :
    Selected.Statement .dpDecFrStop := ⟨encode .dpDecFrStop, rfl⟩

theorem Selected.mfDecTp (region : Bytes) :
    Selected.Statement (.mfDecTp region) := ⟨encode (.mfDecTp region), rfl⟩

theorem Selected.mfDecFr (region : Bytes) (src : TsSrc) :
    Selected.Statement (.mfDecFr region src) := ⟨encode (.mfDecFr region src), rfl⟩

theorem Selected.mfDecFrs (region : Bytes) (src : TsSrc) :
    Selected.Statement (.mfDecFrs region src) := ⟨encode (.mfDecFrs region src), rfl⟩

theorem Selected.fxTs (region : Bytes) (src : TsSrc) :
    Selected.Statement (.fxTs region src) := ⟨encode (.fxTs region src), rfl⟩

theorem Selected.fxHdr (region : Bytes) :
    Selected.Statement (.fxHdr region) := ⟨encode (.fxHdr region), rfl⟩

theorem Selected.fxSs (region : Bytes) :
    Selected.Statement (.fxSs region) := ⟨encode (.fxSs region), rfl⟩

theorem Selected.fxPay (region : Bytes) (start : PayStart) :
    Selected.Statement (.fxPay region start) := by
  cases start
  · exact ⟨.part false 2 region .rtc, rfl⟩
  · exact ⟨.part true 3 region .rtc, rfl⟩

theorem Selected.mfEncTp (payload : Bytes) :
    Selected.Statement (.mfEncTp payload) := ⟨encode (.mfEncTp payload), rfl⟩

theorem Selected.mfEncFr (ts : Option TS) (hdr : U16) (payload : Bytes) (src : TsSrc) :
    Selected.Statement (.mfEncFr ts hdr payload src) := ⟨encode (.mfEncFr ts hdr payload src), rfl⟩

theorem Selected.mfEncFrs (ts : Option TS) (hdr : U16) (sync : U32) (sfid : U16) (payload : Bytes) (src : TsSrc) :
    Selected.Statement (.mfEncFrs ts hdr sync sfid payload src) := ⟨encode (.mfEncFrs ts hdr sync sfid payload src), rfl⟩

theorem Selected.dpEncHdr :
    Selected.Statement .dpEncHdr := ⟨encode .dpEncHdr, rfl⟩

theorem Selected.dpEncTp :
    Selected.Statement .dpEncTp := ⟨encode .dpEncTp, rfl⟩

theorem Selected.dpEncFrStep :
    Selected.Statement .dpEncFrStep := ⟨encode .dpEncFrStep, rfl⟩

theorem Selected.dpEncFrStop :
    Selected.Statement .dpEncFrStop := ⟨encode .dpEncFrStop, rfl⟩

theorem Selected.rdFrame (i : Nat) :
    Selected.Statement (.rdFrame i) := ⟨encode (.rdFrame i), rfl⟩

theorem Selected.rdPay (i k : Nat) :
    Selected.Statement (.rdPay i k) := ⟨encode (.rdPay i k), rfl⟩

theorem Selected.rdOut (k : Nat) :
    Selected.Statement (.rdOut k) := ⟨encode (.rdOut k), rfl⟩

end Sys2Proof.Laws
end

