-- ==== Sys2Proof/Laws/State.lean ====
section
/-! SUPPORT. What each named update does to each field of the state: one lemma a field, so that no proof
unfolds an update. -/

namespace Sys2Proof.Machine

/-! `State.showAnswer`. -/

@[simp] theorem State.showAnswer_params (s : State) (a : Answer) : (s.showAnswer a).params = s.params := rfl
@[simp] theorem State.showAnswer_ctrl (s : State) (a : Answer) : (s.showAnswer a).ctrl = s.ctrl := rfl
@[simp] theorem State.showAnswer_fps (s : State) (a : Answer) : (s.showAnswer a).fps = s.fps := rfl
@[simp] theorem State.showAnswer_fpsSet (s : State) (a : Answer) : (s.showAnswer a).fpsSet = s.fpsSet := rfl
@[simp] theorem State.showAnswer_bufLen (s : State) (a : Answer) : (s.showAnswer a).bufLen = s.bufLen := rfl
@[simp] theorem State.showAnswer_status (s : State) (a : Answer) : (s.showAnswer a).status = s.status := rfl
@[simp] theorem State.showAnswer_modeWord (s : State) (a : Answer) :
    (s.showAnswer a).modeWord = s.modeWord := rfl
@[simp] theorem State.showAnswer_offset (s : State) (a : Answer) : (s.showAnswer a).offset = s.offset := rfl
@[simp] theorem State.showAnswer_errKind (s : State) (a : Answer) :
    (s.showAnswer a).errKind = s.errKind := rfl
@[simp] theorem State.showAnswer_errCause (s : State) (a : Answer) :
    (s.showAnswer a).errCause = s.errCause := rfl
@[simp] theorem State.showAnswer_errOffset (s : State) (a : Answer) :
    (s.showAnswer a).errOffset = s.errOffset := rfl
@[simp] theorem State.showAnswer_errLen (s : State) (a : Answer) : (s.showAnswer a).errLen = s.errLen := rfl
@[simp] theorem State.showAnswer_errIndex (s : State) (a : Answer) :
    (s.showAnswer a).errIndex = s.errIndex := rfl
@[simp] theorem State.showAnswer_refCode (s : State) (a : Answer) :
    (s.showAnswer a).refCode = s.refCode := rfl
@[simp] theorem State.showAnswer_outLen (s : State) (a : Answer) : (s.showAnswer a).outLen = s.outLen := rfl
@[simp] theorem State.showAnswer_outValid (s : State) (a : Answer) :
    (s.showAnswer a).outValid = s.outValid := rfl
@[simp] theorem State.showAnswer_aFlags (s : State) (a : Answer) : (s.showAnswer a).aFlags = s.aFlags := rfl
@[simp] theorem State.showAnswer_aTs (s : State) (a : Answer) : (s.showAnswer a).aTs = s.aTs := rfl
@[simp] theorem State.showAnswer_aHdr (s : State) (a : Answer) : (s.showAnswer a).aHdr = s.aHdr := rfl
@[simp] theorem State.showAnswer_aSync (s : State) (a : Answer) : (s.showAnswer a).aSync = s.aSync := rfl
@[simp] theorem State.showAnswer_aSfid (s : State) (a : Answer) : (s.showAnswer a).aSfid = s.aSfid := rfl
@[simp] theorem State.showAnswer_aPlen (s : State) (a : Answer) : (s.showAnswer a).aPlen = s.aPlen := rfl
@[simp] theorem State.showAnswer_ibuf (s : State) (a : Answer) : (s.showAnswer a).ibuf = s.ibuf := rfl
@[simp] theorem State.showAnswer_obuf (s : State) (a : Answer) : (s.showAnswer a).obuf = s.obuf := rfl
@[simp] theorem State.showAnswer_apay (s : State) (a : Answer) : (s.showAnswer a).apay = s.apay := rfl
@[simp] theorem State.showAnswer_frames (s : State) (a : Answer) : (s.showAnswer a).frames = s.frames := rfl
@[simp] theorem State.showAnswer_latchS (s : State) (a : Answer) : (s.showAnswer a).latchS = s.latchS := rfl
@[simp] theorem State.showAnswer_latchL (s : State) (a : Answer) : (s.showAnswer a).latchL = s.latchL := rfl
@[simp] theorem State.showAnswer_latchX (s : State) (a : Answer) : (s.showAnswer a).latchX = s.latchX := rfl
@[simp] theorem State.showAnswer_latchP (s : State) (a : Answer) : (s.showAnswer a).latchP = s.latchP := rfl
@[simp] theorem State.showAnswer_latchPV (s : State) (a : Answer) :
    (s.showAnswer a).latchPV = s.latchPV := rfl
@[simp] theorem State.showAnswer_phase (s : State) (a : Answer) : (s.showAnswer a).phase = s.phase := rfl
@[simp] theorem State.showAnswer_eidx (s : State) (a : Answer) : (s.showAnswer a).eidx = s.eidx := rfl
@[simp] theorem State.showAnswer_ret (s : State) (a : Answer) : (s.showAnswer a).ret = s.ret := rfl
@[simp] theorem State.showAnswer_resets (s : State) (a : Answer) : (s.showAnswer a).resets = s.resets := rfl
@[simp] theorem State.showAnswer_host (s : State) (a : Answer) : (s.showAnswer a).host = s.host := rfl
@[simp] theorem State.showAnswer_answer (s : State) (a : Answer) : (s.showAnswer a).answer = a := rfl

/-! `State.refuse`. -/

@[simp] theorem State.refuse_params (s : State) (c : RefCode) : (s.refuse c).params = s.params := rfl
@[simp] theorem State.refuse_ctrl (s : State) (c : RefCode) : (s.refuse c).ctrl = s.ctrl := rfl
@[simp] theorem State.refuse_fps (s : State) (c : RefCode) : (s.refuse c).fps = s.fps := rfl
@[simp] theorem State.refuse_fpsSet (s : State) (c : RefCode) : (s.refuse c).fpsSet = s.fpsSet := rfl
@[simp] theorem State.refuse_bufLen (s : State) (c : RefCode) : (s.refuse c).bufLen = s.bufLen := rfl
@[simp] theorem State.refuse_status (s : State) (c : RefCode) : (s.refuse c).status = s.status := rfl
@[simp] theorem State.refuse_modeWord (s : State) (c : RefCode) : (s.refuse c).modeWord = s.modeWord := rfl
@[simp] theorem State.refuse_offset (s : State) (c : RefCode) : (s.refuse c).offset = s.offset := rfl
@[simp] theorem State.refuse_errKind (s : State) (c : RefCode) : (s.refuse c).errKind = s.errKind := rfl
@[simp] theorem State.refuse_errCause (s : State) (c : RefCode) : (s.refuse c).errCause = s.errCause := rfl
@[simp] theorem State.refuse_errOffset (s : State) (c : RefCode) : (s.refuse c).errOffset = s.errOffset := rfl
@[simp] theorem State.refuse_errLen (s : State) (c : RefCode) : (s.refuse c).errLen = s.errLen := rfl
@[simp] theorem State.refuse_errIndex (s : State) (c : RefCode) : (s.refuse c).errIndex = s.errIndex := rfl
@[simp] theorem State.refuse_refCode (s : State) (c : RefCode) :
    (s.refuse c).refCode = some (s.refCode.getD c) := by
  cases h : s.refCode <;> simp [State.refuse, h]
@[simp] theorem State.refuse_outLen (s : State) (c : RefCode) : (s.refuse c).outLen = s.outLen := rfl
@[simp] theorem State.refuse_outValid (s : State) (c : RefCode) : (s.refuse c).outValid = s.outValid := rfl
@[simp] theorem State.refuse_aFlags (s : State) (c : RefCode) : (s.refuse c).aFlags = s.aFlags := rfl
@[simp] theorem State.refuse_aTs (s : State) (c : RefCode) : (s.refuse c).aTs = s.aTs := rfl
@[simp] theorem State.refuse_aHdr (s : State) (c : RefCode) : (s.refuse c).aHdr = s.aHdr := rfl
@[simp] theorem State.refuse_aSync (s : State) (c : RefCode) : (s.refuse c).aSync = s.aSync := rfl
@[simp] theorem State.refuse_aSfid (s : State) (c : RefCode) : (s.refuse c).aSfid = s.aSfid := rfl
@[simp] theorem State.refuse_aPlen (s : State) (c : RefCode) : (s.refuse c).aPlen = s.aPlen := rfl
@[simp] theorem State.refuse_ibuf (s : State) (c : RefCode) : (s.refuse c).ibuf = s.ibuf := rfl
@[simp] theorem State.refuse_obuf (s : State) (c : RefCode) : (s.refuse c).obuf = s.obuf := rfl
@[simp] theorem State.refuse_apay (s : State) (c : RefCode) : (s.refuse c).apay = s.apay := rfl
@[simp] theorem State.refuse_frames (s : State) (c : RefCode) : (s.refuse c).frames = s.frames := rfl
@[simp] theorem State.refuse_latchS (s : State) (c : RefCode) : (s.refuse c).latchS = s.latchS := rfl
@[simp] theorem State.refuse_latchL (s : State) (c : RefCode) : (s.refuse c).latchL = s.latchL := rfl
@[simp] theorem State.refuse_latchX (s : State) (c : RefCode) : (s.refuse c).latchX = s.latchX := rfl
@[simp] theorem State.refuse_latchP (s : State) (c : RefCode) : (s.refuse c).latchP = s.latchP := rfl
@[simp] theorem State.refuse_latchPV (s : State) (c : RefCode) : (s.refuse c).latchPV = s.latchPV := rfl
@[simp] theorem State.refuse_phase (s : State) (c : RefCode) : (s.refuse c).phase = s.phase := rfl
@[simp] theorem State.refuse_eidx (s : State) (c : RefCode) : (s.refuse c).eidx = s.eidx := rfl
@[simp] theorem State.refuse_ret (s : State) (c : RefCode) : (s.refuse c).ret = s.ret := rfl
@[simp] theorem State.refuse_resets (s : State) (c : RefCode) : (s.refuse c).resets = s.resets := rfl
@[simp] theorem State.refuse_host (s : State) (c : RefCode) : (s.refuse c).host = s.host := rfl
@[simp] theorem State.refuse_answer (s : State) (c : RefCode) : (s.refuse c).answer = s.answer := rfl

/-! `State.pushFrame`. -/

@[simp] theorem State.pushFrame_params (s : State) (f : MinorFrame) : (s.pushFrame f).params = s.params := rfl
@[simp] theorem State.pushFrame_ctrl (s : State) (f : MinorFrame) : (s.pushFrame f).ctrl = s.ctrl := rfl
@[simp] theorem State.pushFrame_fps (s : State) (f : MinorFrame) : (s.pushFrame f).fps = s.fps := rfl
@[simp] theorem State.pushFrame_fpsSet (s : State) (f : MinorFrame) : (s.pushFrame f).fpsSet = s.fpsSet := rfl
@[simp] theorem State.pushFrame_bufLen (s : State) (f : MinorFrame) : (s.pushFrame f).bufLen = s.bufLen := rfl
@[simp] theorem State.pushFrame_status (s : State) (f : MinorFrame) : (s.pushFrame f).status = s.status := rfl
@[simp] theorem State.pushFrame_modeWord (s : State) (f : MinorFrame) :
    (s.pushFrame f).modeWord = s.modeWord := rfl
@[simp] theorem State.pushFrame_offset (s : State) (f : MinorFrame) : (s.pushFrame f).offset = s.offset := rfl
@[simp] theorem State.pushFrame_errKind (s : State) (f : MinorFrame) :
    (s.pushFrame f).errKind = s.errKind := rfl
@[simp] theorem State.pushFrame_errCause (s : State) (f : MinorFrame) :
    (s.pushFrame f).errCause = s.errCause := rfl
@[simp] theorem State.pushFrame_errOffset (s : State) (f : MinorFrame) :
    (s.pushFrame f).errOffset = s.errOffset := rfl
@[simp] theorem State.pushFrame_errLen (s : State) (f : MinorFrame) : (s.pushFrame f).errLen = s.errLen := rfl
@[simp] theorem State.pushFrame_errIndex (s : State) (f : MinorFrame) :
    (s.pushFrame f).errIndex = s.errIndex := rfl
@[simp] theorem State.pushFrame_refCode (s : State) (f : MinorFrame) :
    (s.pushFrame f).refCode = s.refCode := rfl
@[simp] theorem State.pushFrame_outLen (s : State) (f : MinorFrame) : (s.pushFrame f).outLen = s.outLen := rfl
@[simp] theorem State.pushFrame_outValid (s : State) (f : MinorFrame) :
    (s.pushFrame f).outValid = s.outValid := rfl
@[simp] theorem State.pushFrame_aFlags (s : State) (f : MinorFrame) : (s.pushFrame f).aFlags = s.aFlags := rfl
@[simp] theorem State.pushFrame_aTs (s : State) (f : MinorFrame) : (s.pushFrame f).aTs = s.aTs := rfl
@[simp] theorem State.pushFrame_aHdr (s : State) (f : MinorFrame) : (s.pushFrame f).aHdr = s.aHdr := rfl
@[simp] theorem State.pushFrame_aSync (s : State) (f : MinorFrame) : (s.pushFrame f).aSync = s.aSync := rfl
@[simp] theorem State.pushFrame_aSfid (s : State) (f : MinorFrame) : (s.pushFrame f).aSfid = s.aSfid := rfl
@[simp] theorem State.pushFrame_aPlen (s : State) (f : MinorFrame) : (s.pushFrame f).aPlen = s.aPlen := rfl
@[simp] theorem State.pushFrame_ibuf (s : State) (f : MinorFrame) : (s.pushFrame f).ibuf = s.ibuf := rfl
@[simp] theorem State.pushFrame_obuf (s : State) (f : MinorFrame) : (s.pushFrame f).obuf = s.obuf := rfl
@[simp] theorem State.pushFrame_apay (s : State) (f : MinorFrame) : (s.pushFrame f).apay = s.apay := rfl
@[simp] theorem State.pushFrame_frames (s : State) (f : MinorFrame) :
    (s.pushFrame f).frames = s.frames ++ [f] := rfl
@[simp] theorem State.pushFrame_latchS (s : State) (f : MinorFrame) : (s.pushFrame f).latchS = s.latchS := rfl
@[simp] theorem State.pushFrame_latchL (s : State) (f : MinorFrame) : (s.pushFrame f).latchL = s.latchL := rfl
@[simp] theorem State.pushFrame_latchX (s : State) (f : MinorFrame) : (s.pushFrame f).latchX = s.latchX := rfl
@[simp] theorem State.pushFrame_latchP (s : State) (f : MinorFrame) : (s.pushFrame f).latchP = s.latchP := rfl
@[simp] theorem State.pushFrame_latchPV (s : State) (f : MinorFrame) :
    (s.pushFrame f).latchPV = s.latchPV := rfl
@[simp] theorem State.pushFrame_phase (s : State) (f : MinorFrame) : (s.pushFrame f).phase = s.phase := rfl
@[simp] theorem State.pushFrame_eidx (s : State) (f : MinorFrame) : (s.pushFrame f).eidx = s.eidx := rfl
@[simp] theorem State.pushFrame_ret (s : State) (f : MinorFrame) : (s.pushFrame f).ret = s.ret := rfl
@[simp] theorem State.pushFrame_resets (s : State) (f : MinorFrame) : (s.pushFrame f).resets = s.resets := rfl
@[simp] theorem State.pushFrame_host (s : State) (f : MinorFrame) : (s.pushFrame f).host = s.host := rfl
@[simp] theorem State.pushFrame_answer (s : State) (f : MinorFrame) : (s.pushFrame f).answer = s.answer := rfl

/-! `State.memWrite`. -/

@[simp] theorem State.memWrite_params (s : State) (a : Nat) (v : Bytes) :
    (s.memWrite a v).params = s.params := rfl
@[simp] theorem State.memWrite_ctrl (s : State) (a : Nat) (v : Bytes) : (s.memWrite a v).ctrl = s.ctrl := rfl
@[simp] theorem State.memWrite_fps (s : State) (a : Nat) (v : Bytes) : (s.memWrite a v).fps = s.fps := rfl
@[simp] theorem State.memWrite_fpsSet (s : State) (a : Nat) (v : Bytes) :
    (s.memWrite a v).fpsSet = s.fpsSet := rfl
@[simp] theorem State.memWrite_bufLen (s : State) (a : Nat) (v : Bytes) :
    (s.memWrite a v).bufLen = s.bufLen := rfl
@[simp] theorem State.memWrite_status (s : State) (a : Nat) (v : Bytes) :
    (s.memWrite a v).status = s.status := rfl
@[simp] theorem State.memWrite_modeWord (s : State) (a : Nat) (v : Bytes) :
    (s.memWrite a v).modeWord = s.modeWord := rfl
@[simp] theorem State.memWrite_offset (s : State) (a : Nat) (v : Bytes) :
    (s.memWrite a v).offset = s.offset := rfl
@[simp] theorem State.memWrite_errKind (s : State) (a : Nat) (v : Bytes) :
    (s.memWrite a v).errKind = s.errKind := rfl
@[simp] theorem State.memWrite_errCause (s : State) (a : Nat) (v : Bytes) :
    (s.memWrite a v).errCause = s.errCause := rfl
@[simp] theorem State.memWrite_errOffset (s : State) (a : Nat) (v : Bytes) :
    (s.memWrite a v).errOffset = s.errOffset := rfl
@[simp] theorem State.memWrite_errLen (s : State) (a : Nat) (v : Bytes) :
    (s.memWrite a v).errLen = s.errLen := rfl
@[simp] theorem State.memWrite_errIndex (s : State) (a : Nat) (v : Bytes) :
    (s.memWrite a v).errIndex = s.errIndex := rfl
@[simp] theorem State.memWrite_refCode (s : State) (a : Nat) (v : Bytes) :
    (s.memWrite a v).refCode = s.refCode := rfl
@[simp] theorem State.memWrite_outLen (s : State) (a : Nat) (v : Bytes) :
    (s.memWrite a v).outLen = s.outLen := rfl
@[simp] theorem State.memWrite_outValid (s : State) (a : Nat) (v : Bytes) :
    (s.memWrite a v).outValid = s.outValid := rfl
@[simp] theorem State.memWrite_aFlags (s : State) (a : Nat) (v : Bytes) :
    (s.memWrite a v).aFlags = s.aFlags := rfl
@[simp] theorem State.memWrite_aTs (s : State) (a : Nat) (v : Bytes) : (s.memWrite a v).aTs = s.aTs := rfl
@[simp] theorem State.memWrite_aHdr (s : State) (a : Nat) (v : Bytes) : (s.memWrite a v).aHdr = s.aHdr := rfl
@[simp] theorem State.memWrite_aSync (s : State) (a : Nat) (v : Bytes) :
    (s.memWrite a v).aSync = s.aSync := rfl
@[simp] theorem State.memWrite_aSfid (s : State) (a : Nat) (v : Bytes) :
    (s.memWrite a v).aSfid = s.aSfid := rfl
@[simp] theorem State.memWrite_aPlen (s : State) (a : Nat) (v : Bytes) :
    (s.memWrite a v).aPlen = s.aPlen := rfl
@[simp] theorem State.memWrite_ibuf (s : State) (a : Nat) (v : Bytes) : (s.memWrite a v).ibuf = s.ibuf := rfl
@[simp] theorem State.memWrite_obuf (s : State) (a : Nat) (v : Bytes) :
    (s.memWrite a v).obuf = Memory.setBytes s.obuf a v := rfl
@[simp] theorem State.memWrite_apay (s : State) (a : Nat) (v : Bytes) : (s.memWrite a v).apay = s.apay := rfl
@[simp] theorem State.memWrite_frames (s : State) (a : Nat) (v : Bytes) :
    (s.memWrite a v).frames = s.frames := rfl
@[simp] theorem State.memWrite_latchS (s : State) (a : Nat) (v : Bytes) :
    (s.memWrite a v).latchS = s.latchS := rfl
@[simp] theorem State.memWrite_latchL (s : State) (a : Nat) (v : Bytes) :
    (s.memWrite a v).latchL = s.latchL := rfl
@[simp] theorem State.memWrite_latchX (s : State) (a : Nat) (v : Bytes) :
    (s.memWrite a v).latchX = s.latchX := rfl
@[simp] theorem State.memWrite_latchP (s : State) (a : Nat) (v : Bytes) :
    (s.memWrite a v).latchP = s.latchP := rfl
@[simp] theorem State.memWrite_latchPV (s : State) (a : Nat) (v : Bytes) :
    (s.memWrite a v).latchPV = s.latchPV := rfl
@[simp] theorem State.memWrite_phase (s : State) (a : Nat) (v : Bytes) :
    (s.memWrite a v).phase = s.phase := rfl
@[simp] theorem State.memWrite_eidx (s : State) (a : Nat) (v : Bytes) : (s.memWrite a v).eidx = s.eidx := rfl
@[simp] theorem State.memWrite_ret (s : State) (a : Nat) (v : Bytes) : (s.memWrite a v).ret = s.ret := rfl
@[simp] theorem State.memWrite_resets (s : State) (a : Nat) (v : Bytes) :
    (s.memWrite a v).resets = s.resets := rfl
@[simp] theorem State.memWrite_host (s : State) (a : Nat) (v : Bytes) : (s.memWrite a v).host = s.host := rfl
@[simp] theorem State.memWrite_answer (s : State) (a : Nat) (v : Bytes) :
    (s.memWrite a v).answer = s.answer := rfl

/-! `State.endDecode`. -/

@[simp] theorem State.endDecode_params (s : State) : (s.endDecode).params = s.params := rfl
@[simp] theorem State.endDecode_ctrl (s : State) : (s.endDecode).ctrl = s.ctrl := rfl
@[simp] theorem State.endDecode_fps (s : State) : (s.endDecode).fps = s.fps := rfl
@[simp] theorem State.endDecode_fpsSet (s : State) : (s.endDecode).fpsSet = s.fpsSet := rfl
@[simp] theorem State.endDecode_bufLen (s : State) : (s.endDecode).bufLen = s.bufLen := rfl
@[simp] theorem State.endDecode_status (s : State) : (s.endDecode).status = .ready := rfl
@[simp] theorem State.endDecode_modeWord (s : State) : (s.endDecode).modeWord = s.modeWord := rfl
@[simp] theorem State.endDecode_offset (s : State) : (s.endDecode).offset = s.offset := rfl
@[simp] theorem State.endDecode_errKind (s : State) : (s.endDecode).errKind = s.errKind := rfl
@[simp] theorem State.endDecode_errCause (s : State) : (s.endDecode).errCause = s.errCause := rfl
@[simp] theorem State.endDecode_errOffset (s : State) : (s.endDecode).errOffset = s.errOffset := rfl
@[simp] theorem State.endDecode_errLen (s : State) : (s.endDecode).errLen = s.errLen := rfl
@[simp] theorem State.endDecode_errIndex (s : State) : (s.endDecode).errIndex = s.errIndex := rfl
@[simp] theorem State.endDecode_refCode (s : State) : (s.endDecode).refCode = s.refCode := rfl
@[simp] theorem State.endDecode_outLen (s : State) : (s.endDecode).outLen = s.outLen := rfl
@[simp] theorem State.endDecode_outValid (s : State) : (s.endDecode).outValid = s.outValid := rfl
@[simp] theorem State.endDecode_aFlags (s : State) : (s.endDecode).aFlags = s.aFlags := rfl
@[simp] theorem State.endDecode_aTs (s : State) : (s.endDecode).aTs = s.aTs := rfl
@[simp] theorem State.endDecode_aHdr (s : State) : (s.endDecode).aHdr = s.aHdr := rfl
@[simp] theorem State.endDecode_aSync (s : State) : (s.endDecode).aSync = s.aSync := rfl
@[simp] theorem State.endDecode_aSfid (s : State) : (s.endDecode).aSfid = s.aSfid := rfl
@[simp] theorem State.endDecode_aPlen (s : State) : (s.endDecode).aPlen = s.aPlen := rfl
@[simp] theorem State.endDecode_ibuf (s : State) : (s.endDecode).ibuf = s.ibuf := rfl
@[simp] theorem State.endDecode_obuf (s : State) : (s.endDecode).obuf = s.obuf := rfl
@[simp] theorem State.endDecode_apay (s : State) : (s.endDecode).apay = s.apay := rfl
@[simp] theorem State.endDecode_frames (s : State) : (s.endDecode).frames = s.frames := rfl
@[simp] theorem State.endDecode_latchS (s : State) : (s.endDecode).latchS = s.latchS := rfl
@[simp] theorem State.endDecode_latchL (s : State) : (s.endDecode).latchL = s.latchL := rfl
@[simp] theorem State.endDecode_latchX (s : State) : (s.endDecode).latchX = s.latchX := rfl
@[simp] theorem State.endDecode_latchP (s : State) : (s.endDecode).latchP = s.latchP := rfl
@[simp] theorem State.endDecode_latchPV (s : State) : (s.endDecode).latchPV = s.latchPV := rfl
@[simp] theorem State.endDecode_phase (s : State) : (s.endDecode).phase = .idle := rfl
@[simp] theorem State.endDecode_eidx (s : State) : (s.endDecode).eidx = s.eidx := rfl
@[simp] theorem State.endDecode_ret (s : State) : (s.endDecode).ret = s.ret := rfl
@[simp] theorem State.endDecode_resets (s : State) : (s.endDecode).resets = s.resets := rfl
@[simp] theorem State.endDecode_host (s : State) : (s.endDecode).host = s.host := rfl
@[simp] theorem State.endDecode_answer (s : State) : (s.endDecode).answer = s.answer := rfl

/-! `State.endEncode`. -/

@[simp] theorem State.endEncode_params (s : State) : (s.endEncode).params = s.params := rfl
@[simp] theorem State.endEncode_ctrl (s : State) : (s.endEncode).ctrl = s.ctrl := rfl
@[simp] theorem State.endEncode_fps (s : State) : (s.endEncode).fps = s.fps := rfl
@[simp] theorem State.endEncode_fpsSet (s : State) : (s.endEncode).fpsSet = s.fpsSet := rfl
@[simp] theorem State.endEncode_bufLen (s : State) : (s.endEncode).bufLen = s.bufLen := rfl
@[simp] theorem State.endEncode_status (s : State) : (s.endEncode).status = s.ret.status := rfl
@[simp] theorem State.endEncode_modeWord (s : State) : (s.endEncode).modeWord = s.modeWord := rfl
@[simp] theorem State.endEncode_offset (s : State) : (s.endEncode).offset = s.offset := rfl
@[simp] theorem State.endEncode_errKind (s : State) : (s.endEncode).errKind = s.errKind := rfl
@[simp] theorem State.endEncode_errCause (s : State) : (s.endEncode).errCause = s.errCause := rfl
@[simp] theorem State.endEncode_errOffset (s : State) : (s.endEncode).errOffset = s.errOffset := rfl
@[simp] theorem State.endEncode_errLen (s : State) : (s.endEncode).errLen = s.errLen := rfl
@[simp] theorem State.endEncode_errIndex (s : State) : (s.endEncode).errIndex = s.errIndex := rfl
@[simp] theorem State.endEncode_refCode (s : State) : (s.endEncode).refCode = s.refCode := rfl
@[simp] theorem State.endEncode_outLen (s : State) : (s.endEncode).outLen = s.outLen := rfl
@[simp] theorem State.endEncode_outValid (s : State) : (s.endEncode).outValid = true := rfl
@[simp] theorem State.endEncode_aFlags (s : State) : (s.endEncode).aFlags = s.aFlags := rfl
@[simp] theorem State.endEncode_aTs (s : State) : (s.endEncode).aTs = s.aTs := rfl
@[simp] theorem State.endEncode_aHdr (s : State) : (s.endEncode).aHdr = s.aHdr := rfl
@[simp] theorem State.endEncode_aSync (s : State) : (s.endEncode).aSync = s.aSync := rfl
@[simp] theorem State.endEncode_aSfid (s : State) : (s.endEncode).aSfid = s.aSfid := rfl
@[simp] theorem State.endEncode_aPlen (s : State) : (s.endEncode).aPlen = s.aPlen := rfl
@[simp] theorem State.endEncode_ibuf (s : State) : (s.endEncode).ibuf = s.ibuf := rfl
@[simp] theorem State.endEncode_obuf (s : State) : (s.endEncode).obuf = s.obuf := rfl
@[simp] theorem State.endEncode_apay (s : State) : (s.endEncode).apay = s.apay := rfl
@[simp] theorem State.endEncode_frames (s : State) : (s.endEncode).frames = s.frames := rfl
@[simp] theorem State.endEncode_latchS (s : State) : (s.endEncode).latchS = s.latchS := rfl
@[simp] theorem State.endEncode_latchL (s : State) : (s.endEncode).latchL = s.latchL := rfl
@[simp] theorem State.endEncode_latchX (s : State) : (s.endEncode).latchX = s.latchX := rfl
@[simp] theorem State.endEncode_latchP (s : State) : (s.endEncode).latchP = s.latchP := rfl
@[simp] theorem State.endEncode_latchPV (s : State) : (s.endEncode).latchPV = s.latchPV := rfl
@[simp] theorem State.endEncode_phase (s : State) : (s.endEncode).phase = .idle := rfl
@[simp] theorem State.endEncode_eidx (s : State) : (s.endEncode).eidx = s.eidx := rfl
@[simp] theorem State.endEncode_ret (s : State) : (s.endEncode).ret = s.ret := rfl
@[simp] theorem State.endEncode_resets (s : State) : (s.endEncode).resets = s.resets := rfl
@[simp] theorem State.endEncode_host (s : State) : (s.endEncode).host = s.host := rfl
@[simp] theorem State.endEncode_answer (s : State) : (s.endEncode).answer = s.answer := rfl

/-! `State.startDecode`. -/

@[simp] theorem State.startDecode_params (s : State) : (s.startDecode).params = s.params := rfl
@[simp] theorem State.startDecode_ctrl (s : State) : (s.startDecode).ctrl = s.ctrl := rfl
@[simp] theorem State.startDecode_fps (s : State) : (s.startDecode).fps = s.fps := rfl
@[simp] theorem State.startDecode_fpsSet (s : State) : (s.startDecode).fpsSet = s.fpsSet := rfl
@[simp] theorem State.startDecode_bufLen (s : State) : (s.startDecode).bufLen = s.bufLen := rfl
@[simp] theorem State.startDecode_status (s : State) : (s.startDecode).status = .busy := rfl
@[simp] theorem State.startDecode_modeWord (s : State) : (s.startDecode).modeWord = s.modeWord := rfl
@[simp] theorem State.startDecode_offset (s : State) : (s.startDecode).offset = 0 := rfl
@[simp] theorem State.startDecode_errKind (s : State) : (s.startDecode).errKind = s.errKind := rfl
@[simp] theorem State.startDecode_errCause (s : State) : (s.startDecode).errCause = s.errCause := rfl
@[simp] theorem State.startDecode_errOffset (s : State) : (s.startDecode).errOffset = s.errOffset := rfl
@[simp] theorem State.startDecode_errLen (s : State) : (s.startDecode).errLen = s.errLen := rfl
@[simp] theorem State.startDecode_errIndex (s : State) : (s.startDecode).errIndex = s.errIndex := rfl
@[simp] theorem State.startDecode_refCode (s : State) : (s.startDecode).refCode = s.refCode := rfl
@[simp] theorem State.startDecode_outLen (s : State) : (s.startDecode).outLen = 0 := rfl
@[simp] theorem State.startDecode_outValid (s : State) : (s.startDecode).outValid = false := rfl
@[simp] theorem State.startDecode_aFlags (s : State) : (s.startDecode).aFlags = s.aFlags := rfl
@[simp] theorem State.startDecode_aTs (s : State) : (s.startDecode).aTs = s.aTs := rfl
@[simp] theorem State.startDecode_aHdr (s : State) : (s.startDecode).aHdr = s.aHdr := rfl
@[simp] theorem State.startDecode_aSync (s : State) : (s.startDecode).aSync = s.aSync := rfl
@[simp] theorem State.startDecode_aSfid (s : State) : (s.startDecode).aSfid = s.aSfid := rfl
@[simp] theorem State.startDecode_aPlen (s : State) : (s.startDecode).aPlen = s.aPlen := rfl
@[simp] theorem State.startDecode_ibuf (s : State) : (s.startDecode).ibuf = s.ibuf := rfl
@[simp] theorem State.startDecode_obuf (s : State) : (s.startDecode).obuf = s.obuf := rfl
@[simp] theorem State.startDecode_apay (s : State) : (s.startDecode).apay = s.apay := rfl
@[simp] theorem State.startDecode_frames (s : State) : (s.startDecode).frames = s.frames := rfl
@[simp] theorem State.startDecode_latchS (s : State) : (s.startDecode).latchS = s.latchS := rfl
@[simp] theorem State.startDecode_latchL (s : State) : (s.startDecode).latchL = s.bufLen := rfl
@[simp] theorem State.startDecode_latchX (s : State) : (s.startDecode).latchX = s.extract := rfl
@[simp] theorem State.startDecode_latchP (s : State) : (s.startDecode).latchP = s.fps := rfl
@[simp] theorem State.startDecode_latchPV (s : State) : (s.startDecode).latchPV = s.fpsSet := rfl
@[simp] theorem State.startDecode_phase (s : State) : (s.startDecode).phase = .dMode := rfl
@[simp] theorem State.startDecode_eidx (s : State) : (s.startDecode).eidx = s.eidx := rfl
@[simp] theorem State.startDecode_ret (s : State) : (s.startDecode).ret = s.ret := rfl
@[simp] theorem State.startDecode_resets (s : State) : (s.startDecode).resets = s.resets := rfl
@[simp] theorem State.startDecode_host (s : State) : (s.startDecode).host = s.host := rfl
@[simp] theorem State.startDecode_answer (s : State) : (s.startDecode).answer = s.answer := rfl

/-! `State.startEncode`. -/

@[simp] theorem State.startEncode_params (s : State) : (s.startEncode).params = s.params := rfl
@[simp] theorem State.startEncode_ctrl (s : State) : (s.startEncode).ctrl = s.ctrl := rfl
@[simp] theorem State.startEncode_fps (s : State) : (s.startEncode).fps = s.fps := rfl
@[simp] theorem State.startEncode_fpsSet (s : State) : (s.startEncode).fpsSet = s.fpsSet := rfl
@[simp] theorem State.startEncode_bufLen (s : State) : (s.startEncode).bufLen = s.bufLen := rfl
@[simp] theorem State.startEncode_status (s : State) : (s.startEncode).status = .busy := rfl
@[simp] theorem State.startEncode_modeWord (s : State) : (s.startEncode).modeWord = s.modeWord := rfl
@[simp] theorem State.startEncode_offset (s : State) : (s.startEncode).offset = s.offset := rfl
@[simp] theorem State.startEncode_errKind (s : State) : (s.startEncode).errKind = s.errKind := rfl
@[simp] theorem State.startEncode_errCause (s : State) : (s.startEncode).errCause = s.errCause := rfl
@[simp] theorem State.startEncode_errOffset (s : State) : (s.startEncode).errOffset = s.errOffset := rfl
@[simp] theorem State.startEncode_errLen (s : State) : (s.startEncode).errLen = s.errLen := rfl
@[simp] theorem State.startEncode_errIndex (s : State) : (s.startEncode).errIndex = s.errIndex := rfl
@[simp] theorem State.startEncode_refCode (s : State) : (s.startEncode).refCode = s.refCode := rfl
@[simp] theorem State.startEncode_outLen (s : State) : (s.startEncode).outLen = 0 := rfl
@[simp] theorem State.startEncode_outValid (s : State) : (s.startEncode).outValid = false := rfl
@[simp] theorem State.startEncode_aFlags (s : State) : (s.startEncode).aFlags = s.aFlags := rfl
@[simp] theorem State.startEncode_aTs (s : State) : (s.startEncode).aTs = s.aTs := rfl
@[simp] theorem State.startEncode_aHdr (s : State) : (s.startEncode).aHdr = s.aHdr := rfl
@[simp] theorem State.startEncode_aSync (s : State) : (s.startEncode).aSync = s.aSync := rfl
@[simp] theorem State.startEncode_aSfid (s : State) : (s.startEncode).aSfid = s.aSfid := rfl
@[simp] theorem State.startEncode_aPlen (s : State) : (s.startEncode).aPlen = s.aPlen := rfl
@[simp] theorem State.startEncode_ibuf (s : State) : (s.startEncode).ibuf = s.ibuf := rfl
@[simp] theorem State.startEncode_obuf (s : State) : (s.startEncode).obuf = s.obuf := rfl
@[simp] theorem State.startEncode_apay (s : State) : (s.startEncode).apay = s.apay := rfl
@[simp] theorem State.startEncode_frames (s : State) : (s.startEncode).frames = s.frames := rfl
@[simp] theorem State.startEncode_latchS (s : State) : (s.startEncode).latchS = s.latchS := rfl
@[simp] theorem State.startEncode_latchL (s : State) : (s.startEncode).latchL = s.latchL := rfl
@[simp] theorem State.startEncode_latchX (s : State) : (s.startEncode).latchX = s.latchX := rfl
@[simp] theorem State.startEncode_latchP (s : State) : (s.startEncode).latchP = s.latchP := rfl
@[simp] theorem State.startEncode_latchPV (s : State) : (s.startEncode).latchPV = s.latchPV := rfl
@[simp] theorem State.startEncode_phase (s : State) : (s.startEncode).phase = .eHdr := rfl
@[simp] theorem State.startEncode_eidx (s : State) : (s.startEncode).eidx = 0 := rfl
@[simp] theorem State.startEncode_ret (s : State) : (s.startEncode).ret = s.status.toRet := rfl
@[simp] theorem State.startEncode_resets (s : State) : (s.startEncode).resets = s.resets := rfl
@[simp] theorem State.startEncode_host (s : State) : (s.startEncode).host = s.host := rfl
@[simp] theorem State.startEncode_answer (s : State) : (s.startEncode).answer = s.answer := rfl

/-! `State.clear`. -/

@[simp] theorem State.clear_params (s : State) : (s.clear).params = s.params := rfl
@[simp] theorem State.clear_ctrl (s : State) : (s.clear).ctrl = s.ctrl := rfl
@[simp] theorem State.clear_fps (s : State) : (s.clear).fps = s.fps := rfl
@[simp] theorem State.clear_fpsSet (s : State) : (s.clear).fpsSet = s.fpsSet := rfl
@[simp] theorem State.clear_bufLen (s : State) : (s.clear).bufLen = s.bufLen := rfl
@[simp] theorem State.clear_status (s : State) : (s.clear).status = .empty := rfl
@[simp] theorem State.clear_modeWord (s : State) : (s.clear).modeWord = 0#32 := rfl
@[simp] theorem State.clear_offset (s : State) : (s.clear).offset = 0 := rfl
@[simp] theorem State.clear_errKind (s : State) : (s.clear).errKind = none := rfl
@[simp] theorem State.clear_errCause (s : State) : (s.clear).errCause = none := rfl
@[simp] theorem State.clear_errOffset (s : State) : (s.clear).errOffset = 0 := rfl
@[simp] theorem State.clear_errLen (s : State) : (s.clear).errLen = 0 := rfl
@[simp] theorem State.clear_errIndex (s : State) : (s.clear).errIndex = 0 := rfl
@[simp] theorem State.clear_refCode (s : State) : (s.clear).refCode = none := rfl
@[simp] theorem State.clear_outLen (s : State) : (s.clear).outLen = 0 := rfl
@[simp] theorem State.clear_outValid (s : State) : (s.clear).outValid = false := rfl
@[simp] theorem State.clear_aFlags (s : State) : (s.clear).aFlags = s.aFlags := rfl
@[simp] theorem State.clear_aTs (s : State) : (s.clear).aTs = s.aTs := rfl
@[simp] theorem State.clear_aHdr (s : State) : (s.clear).aHdr = s.aHdr := rfl
@[simp] theorem State.clear_aSync (s : State) : (s.clear).aSync = s.aSync := rfl
@[simp] theorem State.clear_aSfid (s : State) : (s.clear).aSfid = s.aSfid := rfl
@[simp] theorem State.clear_aPlen (s : State) : (s.clear).aPlen = s.aPlen := rfl
@[simp] theorem State.clear_ibuf (s : State) : (s.clear).ibuf = s.ibuf := rfl
@[simp] theorem State.clear_obuf (s : State) : (s.clear).obuf = s.obuf := rfl
@[simp] theorem State.clear_apay (s : State) : (s.clear).apay = s.apay := rfl
@[simp] theorem State.clear_frames (s : State) : (s.clear).frames = [] := rfl
@[simp] theorem State.clear_latchS (s : State) : (s.clear).latchS = s.tsSrc := rfl
@[simp] theorem State.clear_latchL (s : State) : (s.clear).latchL = s.latchL := rfl
@[simp] theorem State.clear_latchX (s : State) : (s.clear).latchX = s.latchX := rfl
@[simp] theorem State.clear_latchP (s : State) : (s.clear).latchP = s.latchP := rfl
@[simp] theorem State.clear_latchPV (s : State) : (s.clear).latchPV = s.latchPV := rfl
@[simp] theorem State.clear_phase (s : State) : (s.clear).phase = s.phase := rfl
@[simp] theorem State.clear_eidx (s : State) : (s.clear).eidx = s.eidx := rfl
@[simp] theorem State.clear_ret (s : State) : (s.clear).ret = s.ret := rfl
@[simp] theorem State.clear_resets (s : State) : (s.clear).resets = s.resets := rfl
@[simp] theorem State.clear_host (s : State) : (s.clear).host = s.host := rfl
@[simp] theorem State.clear_answer (s : State) : (s.clear).answer = s.answer := rfl

/-! `State.takeDecodeFault`. -/

@[simp] theorem State.takeDecodeFault_params (s : State) (k : ErrKind) (c : Option ErrKind) :
    (s.takeDecodeFault k c).params = s.params := rfl
@[simp] theorem State.takeDecodeFault_ctrl (s : State) (k : ErrKind) (c : Option ErrKind) :
    (s.takeDecodeFault k c).ctrl = s.ctrl := rfl
@[simp] theorem State.takeDecodeFault_fps (s : State) (k : ErrKind) (c : Option ErrKind) :
    (s.takeDecodeFault k c).fps = s.fps := rfl
@[simp] theorem State.takeDecodeFault_fpsSet (s : State) (k : ErrKind) (c : Option ErrKind) :
    (s.takeDecodeFault k c).fpsSet = s.fpsSet := rfl
@[simp] theorem State.takeDecodeFault_bufLen (s : State) (k : ErrKind) (c : Option ErrKind) :
    (s.takeDecodeFault k c).bufLen = s.bufLen := rfl
@[simp] theorem State.takeDecodeFault_status (s : State) (k : ErrKind) (c : Option ErrKind) :
    (s.takeDecodeFault k c).status = .faulted := rfl
@[simp] theorem State.takeDecodeFault_modeWord (s : State) (k : ErrKind) (c : Option ErrKind) :
    (s.takeDecodeFault k c).modeWord = s.modeWord := rfl
@[simp] theorem State.takeDecodeFault_offset (s : State) (k : ErrKind) (c : Option ErrKind) :
    (s.takeDecodeFault k c).offset = s.offset := rfl
@[simp] theorem State.takeDecodeFault_errKind (s : State) (k : ErrKind) (c : Option ErrKind) :
    (s.takeDecodeFault k c).errKind = s.onFirstFault (some k) s.errKind := rfl
@[simp] theorem State.takeDecodeFault_errCause (s : State) (k : ErrKind) (c : Option ErrKind) :
    (s.takeDecodeFault k c).errCause = s.onFirstFault c s.errCause := rfl
@[simp] theorem State.takeDecodeFault_errOffset (s : State) (k : ErrKind) (c : Option ErrKind) :
    (s.takeDecodeFault k c).errOffset = s.onFirstFault s.offset s.errOffset := rfl
@[simp] theorem State.takeDecodeFault_errLen (s : State) (k : ErrKind) (c : Option ErrKind) :
    (s.takeDecodeFault k c).errLen = s.onFirstFault s.latchL s.errLen := rfl
@[simp] theorem State.takeDecodeFault_errIndex (s : State) (k : ErrKind) (c : Option ErrKind) :
    (s.takeDecodeFault k c).errIndex = s.onFirstFault 0 s.errIndex := rfl
@[simp] theorem State.takeDecodeFault_refCode (s : State) (k : ErrKind) (c : Option ErrKind) :
    (s.takeDecodeFault k c).refCode = s.refCode := rfl
@[simp] theorem State.takeDecodeFault_outLen (s : State) (k : ErrKind) (c : Option ErrKind) :
    (s.takeDecodeFault k c).outLen = 0 := rfl
@[simp] theorem State.takeDecodeFault_outValid (s : State) (k : ErrKind) (c : Option ErrKind) :
    (s.takeDecodeFault k c).outValid = false := rfl
@[simp] theorem State.takeDecodeFault_aFlags (s : State) (k : ErrKind) (c : Option ErrKind) :
    (s.takeDecodeFault k c).aFlags = s.aFlags := rfl
@[simp] theorem State.takeDecodeFault_aTs (s : State) (k : ErrKind) (c : Option ErrKind) :
    (s.takeDecodeFault k c).aTs = s.aTs := rfl
@[simp] theorem State.takeDecodeFault_aHdr (s : State) (k : ErrKind) (c : Option ErrKind) :
    (s.takeDecodeFault k c).aHdr = s.aHdr := rfl
@[simp] theorem State.takeDecodeFault_aSync (s : State) (k : ErrKind) (c : Option ErrKind) :
    (s.takeDecodeFault k c).aSync = s.aSync := rfl
@[simp] theorem State.takeDecodeFault_aSfid (s : State) (k : ErrKind) (c : Option ErrKind) :
    (s.takeDecodeFault k c).aSfid = s.aSfid := rfl
@[simp] theorem State.takeDecodeFault_aPlen (s : State) (k : ErrKind) (c : Option ErrKind) :
    (s.takeDecodeFault k c).aPlen = s.aPlen := rfl
@[simp] theorem State.takeDecodeFault_ibuf (s : State) (k : ErrKind) (c : Option ErrKind) :
    (s.takeDecodeFault k c).ibuf = s.ibuf := rfl
@[simp] theorem State.takeDecodeFault_obuf (s : State) (k : ErrKind) (c : Option ErrKind) :
    (s.takeDecodeFault k c).obuf = s.obuf := rfl
@[simp] theorem State.takeDecodeFault_apay (s : State) (k : ErrKind) (c : Option ErrKind) :
    (s.takeDecodeFault k c).apay = s.apay := rfl
@[simp] theorem State.takeDecodeFault_frames (s : State) (k : ErrKind) (c : Option ErrKind) :
    (s.takeDecodeFault k c).frames = [] := rfl
@[simp] theorem State.takeDecodeFault_latchS (s : State) (k : ErrKind) (c : Option ErrKind) :
    (s.takeDecodeFault k c).latchS = s.latchS := rfl
@[simp] theorem State.takeDecodeFault_latchL (s : State) (k : ErrKind) (c : Option ErrKind) :
    (s.takeDecodeFault k c).latchL = s.latchL := rfl
@[simp] theorem State.takeDecodeFault_latchX (s : State) (k : ErrKind) (c : Option ErrKind) :
    (s.takeDecodeFault k c).latchX = s.latchX := rfl
@[simp] theorem State.takeDecodeFault_latchP (s : State) (k : ErrKind) (c : Option ErrKind) :
    (s.takeDecodeFault k c).latchP = s.latchP := rfl
@[simp] theorem State.takeDecodeFault_latchPV (s : State) (k : ErrKind) (c : Option ErrKind) :
    (s.takeDecodeFault k c).latchPV = s.latchPV := rfl
@[simp] theorem State.takeDecodeFault_phase (s : State) (k : ErrKind) (c : Option ErrKind) :
    (s.takeDecodeFault k c).phase = .idle := rfl
@[simp] theorem State.takeDecodeFault_eidx (s : State) (k : ErrKind) (c : Option ErrKind) :
    (s.takeDecodeFault k c).eidx = s.eidx := rfl
@[simp] theorem State.takeDecodeFault_ret (s : State) (k : ErrKind) (c : Option ErrKind) :
    (s.takeDecodeFault k c).ret = s.ret := rfl
@[simp] theorem State.takeDecodeFault_resets (s : State) (k : ErrKind) (c : Option ErrKind) :
    (s.takeDecodeFault k c).resets = s.resets := rfl
@[simp] theorem State.takeDecodeFault_host (s : State) (k : ErrKind) (c : Option ErrKind) :
    (s.takeDecodeFault k c).host = s.host := rfl
@[simp] theorem State.takeDecodeFault_answer (s : State) (k : ErrKind) (c : Option ErrKind) :
    (s.takeDecodeFault k c).answer = s.answer := rfl

/-! `State.takeEncodeFault`. -/

@[simp] theorem State.takeEncodeFault_params (s : State) (k : ErrKind) (n : Nat) :
    (s.takeEncodeFault k n).params = s.params := rfl
@[simp] theorem State.takeEncodeFault_ctrl (s : State) (k : ErrKind) (n : Nat) :
    (s.takeEncodeFault k n).ctrl = s.ctrl := rfl
@[simp] theorem State.takeEncodeFault_fps (s : State) (k : ErrKind) (n : Nat) :
    (s.takeEncodeFault k n).fps = s.fps := rfl
@[simp] theorem State.takeEncodeFault_fpsSet (s : State) (k : ErrKind) (n : Nat) :
    (s.takeEncodeFault k n).fpsSet = s.fpsSet := rfl
@[simp] theorem State.takeEncodeFault_bufLen (s : State) (k : ErrKind) (n : Nat) :
    (s.takeEncodeFault k n).bufLen = s.bufLen := rfl
@[simp] theorem State.takeEncodeFault_status (s : State) (k : ErrKind) (n : Nat) :
    (s.takeEncodeFault k n).status = s.ret.status := rfl
@[simp] theorem State.takeEncodeFault_modeWord (s : State) (k : ErrKind) (n : Nat) :
    (s.takeEncodeFault k n).modeWord = s.modeWord := rfl
@[simp] theorem State.takeEncodeFault_offset (s : State) (k : ErrKind) (n : Nat) :
    (s.takeEncodeFault k n).offset = s.offset := rfl
@[simp] theorem State.takeEncodeFault_errKind (s : State) (k : ErrKind) (n : Nat) :
    (s.takeEncodeFault k n).errKind = s.onFirstFault (some k) s.errKind := rfl
@[simp] theorem State.takeEncodeFault_errCause (s : State) (k : ErrKind) (n : Nat) :
    (s.takeEncodeFault k n).errCause = s.onFirstFault none s.errCause := rfl
@[simp] theorem State.takeEncodeFault_errOffset (s : State) (k : ErrKind) (n : Nat) :
    (s.takeEncodeFault k n).errOffset = s.onFirstFault 0 s.errOffset := rfl
@[simp] theorem State.takeEncodeFault_errLen (s : State) (k : ErrKind) (n : Nat) :
    (s.takeEncodeFault k n).errLen = s.onFirstFault 0 s.errLen := rfl
@[simp] theorem State.takeEncodeFault_errIndex (s : State) (k : ErrKind) (n : Nat) :
    (s.takeEncodeFault k n).errIndex = s.onFirstFault n s.errIndex := rfl
@[simp] theorem State.takeEncodeFault_refCode (s : State) (k : ErrKind) (n : Nat) :
    (s.takeEncodeFault k n).refCode = s.refCode := rfl
@[simp] theorem State.takeEncodeFault_outLen (s : State) (k : ErrKind) (n : Nat) :
    (s.takeEncodeFault k n).outLen = 0 := rfl
@[simp] theorem State.takeEncodeFault_outValid (s : State) (k : ErrKind) (n : Nat) :
    (s.takeEncodeFault k n).outValid = false := rfl
@[simp] theorem State.takeEncodeFault_aFlags (s : State) (k : ErrKind) (n : Nat) :
    (s.takeEncodeFault k n).aFlags = s.aFlags := rfl
@[simp] theorem State.takeEncodeFault_aTs (s : State) (k : ErrKind) (n : Nat) :
    (s.takeEncodeFault k n).aTs = s.aTs := rfl
@[simp] theorem State.takeEncodeFault_aHdr (s : State) (k : ErrKind) (n : Nat) :
    (s.takeEncodeFault k n).aHdr = s.aHdr := rfl
@[simp] theorem State.takeEncodeFault_aSync (s : State) (k : ErrKind) (n : Nat) :
    (s.takeEncodeFault k n).aSync = s.aSync := rfl
@[simp] theorem State.takeEncodeFault_aSfid (s : State) (k : ErrKind) (n : Nat) :
    (s.takeEncodeFault k n).aSfid = s.aSfid := rfl
@[simp] theorem State.takeEncodeFault_aPlen (s : State) (k : ErrKind) (n : Nat) :
    (s.takeEncodeFault k n).aPlen = s.aPlen := rfl
@[simp] theorem State.takeEncodeFault_ibuf (s : State) (k : ErrKind) (n : Nat) :
    (s.takeEncodeFault k n).ibuf = s.ibuf := rfl
@[simp] theorem State.takeEncodeFault_obuf (s : State) (k : ErrKind) (n : Nat) :
    (s.takeEncodeFault k n).obuf = s.obuf := rfl
@[simp] theorem State.takeEncodeFault_apay (s : State) (k : ErrKind) (n : Nat) :
    (s.takeEncodeFault k n).apay = s.apay := rfl
@[simp] theorem State.takeEncodeFault_frames (s : State) (k : ErrKind) (n : Nat) :
    (s.takeEncodeFault k n).frames = s.frames := rfl
@[simp] theorem State.takeEncodeFault_latchS (s : State) (k : ErrKind) (n : Nat) :
    (s.takeEncodeFault k n).latchS = s.latchS := rfl
@[simp] theorem State.takeEncodeFault_latchL (s : State) (k : ErrKind) (n : Nat) :
    (s.takeEncodeFault k n).latchL = s.latchL := rfl
@[simp] theorem State.takeEncodeFault_latchX (s : State) (k : ErrKind) (n : Nat) :
    (s.takeEncodeFault k n).latchX = s.latchX := rfl
@[simp] theorem State.takeEncodeFault_latchP (s : State) (k : ErrKind) (n : Nat) :
    (s.takeEncodeFault k n).latchP = s.latchP := rfl
@[simp] theorem State.takeEncodeFault_latchPV (s : State) (k : ErrKind) (n : Nat) :
    (s.takeEncodeFault k n).latchPV = s.latchPV := rfl
@[simp] theorem State.takeEncodeFault_phase (s : State) (k : ErrKind) (n : Nat) :
    (s.takeEncodeFault k n).phase = .idle := rfl
@[simp] theorem State.takeEncodeFault_eidx (s : State) (k : ErrKind) (n : Nat) :
    (s.takeEncodeFault k n).eidx = s.eidx := rfl
@[simp] theorem State.takeEncodeFault_ret (s : State) (k : ErrKind) (n : Nat) :
    (s.takeEncodeFault k n).ret = s.ret := rfl
@[simp] theorem State.takeEncodeFault_resets (s : State) (k : ErrKind) (n : Nat) :
    (s.takeEncodeFault k n).resets = s.resets := rfl
@[simp] theorem State.takeEncodeFault_host (s : State) (k : ErrKind) (n : Nat) :
    (s.takeEncodeFault k n).host = s.host := rfl
@[simp] theorem State.takeEncodeFault_answer (s : State) (k : ErrKind) (n : Nat) :
    (s.takeEncodeFault k n).answer = s.answer := rfl

/-! `State.resetWith`. -/

@[simp] theorem State.resetWith_params (p : Params) (n : Nat) : (State.resetWith p n).params = p := rfl
@[simp] theorem State.resetWith_ctrl (p : Params) (n : Nat) : (State.resetWith p n).ctrl = 0#32 := rfl
@[simp] theorem State.resetWith_fps (p : Params) (n : Nat) : (State.resetWith p n).fps = 0 := rfl
@[simp] theorem State.resetWith_fpsSet (p : Params) (n : Nat) : (State.resetWith p n).fpsSet = false := rfl
@[simp] theorem State.resetWith_bufLen (p : Params) (n : Nat) : (State.resetWith p n).bufLen = 0 := rfl
@[simp] theorem State.resetWith_status (p : Params) (n : Nat) : (State.resetWith p n).status = .empty := rfl
@[simp] theorem State.resetWith_modeWord (p : Params) (n : Nat) : (State.resetWith p n).modeWord = 0#32 := rfl
@[simp] theorem State.resetWith_offset (p : Params) (n : Nat) : (State.resetWith p n).offset = 0 := rfl
@[simp] theorem State.resetWith_errKind (p : Params) (n : Nat) : (State.resetWith p n).errKind = none := rfl
@[simp] theorem State.resetWith_errCause (p : Params) (n : Nat) : (State.resetWith p n).errCause = none := rfl
@[simp] theorem State.resetWith_errOffset (p : Params) (n : Nat) : (State.resetWith p n).errOffset = 0 := rfl
@[simp] theorem State.resetWith_errLen (p : Params) (n : Nat) : (State.resetWith p n).errLen = 0 := rfl
@[simp] theorem State.resetWith_errIndex (p : Params) (n : Nat) : (State.resetWith p n).errIndex = 0 := rfl
@[simp] theorem State.resetWith_refCode (p : Params) (n : Nat) : (State.resetWith p n).refCode = none := rfl
@[simp] theorem State.resetWith_outLen (p : Params) (n : Nat) : (State.resetWith p n).outLen = 0 := rfl
@[simp] theorem State.resetWith_outValid (p : Params) (n : Nat) : (State.resetWith p n).outValid = false := rfl
@[simp] theorem State.resetWith_aFlags (p : Params) (n : Nat) : (State.resetWith p n).aFlags = 0#3 := rfl
@[simp] theorem State.resetWith_aTs (p : Params) (n : Nat) : (State.resetWith p n).aTs = TS.ofBits (Config.aTsFree p.tsW n) := rfl
@[simp] theorem State.resetWith_aHdr (p : Params) (n : Nat) : (State.resetWith p n).aHdr = 0#16 := rfl
@[simp] theorem State.resetWith_aSync (p : Params) (n : Nat) : (State.resetWith p n).aSync = 0#32 := rfl
@[simp] theorem State.resetWith_aSfid (p : Params) (n : Nat) : (State.resetWith p n).aSfid = 0#16 := rfl
@[simp] theorem State.resetWith_aPlen (p : Params) (n : Nat) : (State.resetWith p n).aPlen = 0 := rfl
@[simp] theorem State.resetWith_ibuf (p : Params) (n : Nat) : (State.resetWith p n).ibuf = [] := rfl
@[simp] theorem State.resetWith_obuf (p : Params) (n : Nat) : (State.resetWith p n).obuf = [] := rfl
@[simp] theorem State.resetWith_apay (p : Params) (n : Nat) : (State.resetWith p n).apay = [] := rfl
@[simp] theorem State.resetWith_frames (p : Params) (n : Nat) : (State.resetWith p n).frames = [] := rfl
@[simp] theorem State.resetWith_latchS (p : Params) (n : Nat) : (State.resetWith p n).latchS = .rtc := rfl
@[simp] theorem State.resetWith_latchL (p : Params) (n : Nat) : (State.resetWith p n).latchL = 0 := rfl
@[simp] theorem State.resetWith_latchX (p : Params) (n : Nat) : (State.resetWith p n).latchX = false := rfl
@[simp] theorem State.resetWith_latchP (p : Params) (n : Nat) : (State.resetWith p n).latchP = 0 := rfl
@[simp] theorem State.resetWith_latchPV (p : Params) (n : Nat) : (State.resetWith p n).latchPV = false := rfl
@[simp] theorem State.resetWith_phase (p : Params) (n : Nat) : (State.resetWith p n).phase = .idle := rfl
@[simp] theorem State.resetWith_eidx (p : Params) (n : Nat) : (State.resetWith p n).eidx = 0 := rfl
@[simp] theorem State.resetWith_ret (p : Params) (n : Nat) : (State.resetWith p n).ret = .empty := rfl
@[simp] theorem State.resetWith_resets (p : Params) (n : Nat) : (State.resetWith p n).resets = n := rfl
@[simp] theorem State.resetWith_host (p : Params) (n : Nat) : (State.resetWith p n).host = [] := rfl
@[simp] theorem State.resetWith_answer (p : Params) (n : Nat) : (State.resetWith p n).answer = .none := rfl

/-! What a recorded fault writes: the first fault wins (60_exceptions.md R226). -/

theorem State.onFirstFault_of_none (s : State) {α : Type} (new old : α) (h : s.errKind = none) :
    s.onFirstFault new old = new := by simp [State.onFirstFault, h]

theorem State.onFirstFault_of_some (s : State) {α : Type} (new old : α) (k : ErrKind)
    (h : s.errKind = some k) : s.onFirstFault new old = old := by simp [State.onFirstFault, h]

end Sys2Proof.Machine
end

