-- ==== Sys2Proof/Laws/Step.lean ====
section
/-! SUPPORT. What one step can do, said once: every step is a reset or one of the changes of `Change`. -/

namespace Sys2Proof.Machine

/-- The changes a step can make to the state whose host action has been taken; `op` is that action. -/
inductive Change (op : Option HostOp) (s : State) : State → Prop where
  | same : Change op s s
  | answer (a : Answer) : Change op s (s.showAnswer a)
  | refuse (c : RefCode) : Change op s (s.refuse c)
  | clear (v : Nat) (hop : op = some (.write 3 v)) (hv : v % 8 = 1) (h : s.status ≠ .busy) :
      Change op s s.clear
  | startDecode (h : s.status = .empty) : Change op s s.startDecode
  | startEncode (h : s.status = .ready ∨ s.status = .empty ∧ s.tp = false) : Change op s s.startEncode
  | append (pay : Bytes) (h : s.status = .empty ∨ s.status = .ready) (hr : s.appendRefusal = none)
      (hp : s.stagedPayload = some pay) :
      Change op s { s.pushFrame (s.stagedFrame pay) with
        outValid := false, outLen := 0, status := .ready }
  | modeShort (h : s.phase = .dMode) (hl : s.latchL < 4) :
      Change op s (s.takeDecodeFault .malformedBuffer none)
  | mode (h : s.phase = .dMode) (hl : 4 ≤ s.latchL) (hc : 4 ≤ s.params.bufCap) :
      Change op s { s with
        modeWord := le32 (s.ibufSlice 0 4), offset := 4
        phase := decodeRoute (le32 (s.ibufSlice 0 4)) }
  | bodyTp (h : s.phase = .dTp) (hc : 4 + (s.latchL - 4) ≤ s.params.bufCap) :
      Change op s ({ s with
        frames := [.tp (s.ibufSlice 4 (s.latchL - 4))], offset := s.latchL } : State).endDecode
  | enterFr (h : s.phase = .dFre) (hp : s.latchPV = true) : Change op s { s with phase := .dFr }
  | noFps (h : s.phase = .dFre) (hp : s.latchPV = false) :
      Change op s (s.takeDecodeFault .configurationError none)
  | record (f : MinorFrame) (h : s.phase = .dFr) (hf : s.offset + s.rs ≤ s.latchL)
      (hc : s.offset + s.rs ≤ s.params.bufCap)
      (hd : mfuDecode s.codec (s.ibufSlice s.offset s.rs) false s.latchX s.latchS = .ok f) :
      Change op s { s.pushFrame f with offset := s.offset + s.stride }
  | recordFault (k : ErrKind) (h : s.phase = .dFr) (hf : s.offset + s.rs ≤ s.latchL)
      (hc : s.offset + s.rs ≤ s.params.bufCap)
      (hd : mfuDecode s.codec (s.ibufSlice s.offset s.rs) false s.latchX s.latchS = .error k) :
      Change op s (s.takeDecodeFault .offsetDecodeError (some k))
  | recordStop (h : s.phase = .dFr) (hf : s.latchL < s.offset + s.rs) : Change op s s.endDecode
  | encHdr (h : s.phase = .eHdr) :
      Change op s { s.memWrite 0 (le32Enc s.modeWord) with
        outLen := 4, phase := encodeRoute s.modeWord }
  | encTp (f : MinorFrame) (h : s.phase = .eTp) (hf : s.frames.head? = some f)
      (hc : 4 + f.payload.length ≤ s.params.outCap) :
      Change op s ({ s.memWrite 4 f.payload with outLen := 4 + f.payload.length } : State).endEncode
  | encTpFault (f : MinorFrame) (h : s.phase = .eTp) (hf : s.frames.head? = some f)
      (hc : s.params.outCap < 4 + f.payload.length) :
      Change op s (s.takeEncodeFault .capacityError 0)
  | encFrame (f : MinorFrame) (b : Bytes) (h : s.phase = .eFr) (hf : s.frames[s.eidx]? = some f)
      (he : mfuEncode s.codec f s.latchS = .ok b)
      (hc : s.outLen + b.length + b.length % 2 ≤ s.params.outCap) :
      Change op s { s.memWrite s.outLen (b ++ padBytes b.length) with
        outLen := s.outLen + b.length + b.length % 2, eidx := s.eidx + 1 }
  | encFrameError (f : MinorFrame) (k : ErrKind) (h : s.phase = .eFr) (hf : s.frames[s.eidx]? = some f)
      (he : mfuEncode s.codec f s.latchS = .error k) :
      Change op s (s.takeEncodeFault k s.eidx)
  | encFrameFault (f : MinorFrame) (b : Bytes) (h : s.phase = .eFr) (hf : s.frames[s.eidx]? = some f)
      (he : mfuEncode s.codec f s.latchS = .ok b)
      (hc : s.params.outCap < s.outLen + b.length + b.length % 2) :
      Change op s (s.takeEncodeFault .capacityError s.eidx)
  | encStop (h : s.phase = .eFr) (he : s.eidx = s.frames.length) : Change op s s.endEncode
  | writeReg (r : Reg) (v : Nat) (hi : r.ignoresWrites = false) (h : s.status ≠ .busy) :
      Change op s (s.writeRegIdle r v)
  | writeIbuf (a : Nat) (b : Byte) (hop : op = some (.writeIbuf a b)) (h : s.status ≠ .busy)
      (ha : a < s.params.bufCap) : Change op s { s with ibuf := Memory.set s.ibuf a b }
  | writeApay (a : Nat) (b : Byte) (hop : op = some (.writeApay a b)) (h : s.status ≠ .busy)
      (ha : a < s.params.payCap) : Change op s { s with apay := Memory.set s.apay a b }

/-! The commands. -/

theorem change_cmdNop {op : Option HostOp} {s t : State} (h : execCmdNop s = .next t) :
    Change op s t := by
  unfold execCmdNop at h
  split at h <;> cases h
  · exact .refuse _
  all_goals exact .same

theorem change_cmdClear {op : Option HostOp} {s t : State} (v : Nat) (hop : op = some (.write 3 v))
    (hv : v % 8 = 1) (h : execCmdClear s = .next t) : Change op s t := by
  unfold execCmdClear at h
  split at h <;> cases h
  · exact .refuse _
  all_goals exact .clear v hop hv (by simp [*])

theorem change_cmdDecode {op : Option HostOp} {s t : State} (h : execCmdDecode s = .next t) :
    Change op s t := by
  unfold execCmdDecode at h
  split at h <;> cases h
  · exact .refuse _
  · exact .startDecode (by assumption)
  all_goals exact .refuse _

theorem change_cmdEncode {op : Option HostOp} {s t : State} (h : execCmdEncode s = .next t) :
    Change op s t := by
  unfold execCmdEncode at h
  split at h
  · cases h; exact .refuse _
  · split at h <;> cases h
    · exact .refuse _
    · exact .startEncode (.inr ⟨by assumption, eq_false_of_ne_true (by assumption)⟩)
  · cases h; exact .startEncode (.inl (by assumption))
  · cases h; exact .refuse _

theorem change_appendStaged {op : Option HostOp} {s t : State}
    (hs : s.status = .empty ∨ s.status = .ready) (h : s.appendStaged = .next t) : Change op s t := by
  unfold State.appendStaged at h
  split at h
  · cases h; exact .refuse _
  · split at h
    · cases h
    · cases h; exact .append _ hs (by assumption) (by assumption)

theorem change_cmdAppend {op : Option HostOp} {s t : State} (h : execCmdAppend s = .next t) :
    Change op s t := by
  unfold execCmdAppend at h
  split at h
  · cases h; exact .refuse _
  · exact change_appendStaged (.inl (by assumption)) h
  · exact change_appendStaged (.inr (by assumption)) h
  · cases h; exact .refuse _

theorem change_refuseReserved {op : Option HostOp} (s : State) : Change op s s.refuseReserved := by
  unfold State.refuseReserved
  split <;> exact .refuse _

/-! The small steps. -/

theorem change_dpMode {op : Option HostOp} {s t : State} (h : execDpMode s = .next t) :
    Change op s t := by
  unfold execDpMode at h
  split at h
  · split at h
    · cases h; exact .modeShort (by assumption) (by assumption)
    · split at h
      · cases h
      · next b hb =>
        cases h
        obtain ⟨hc, rfl⟩ := memRead_eq_some.1 hb
        exact .mode (by assumption) (Nat.not_lt.1 (by assumption)) (by simpa [modeWordBytes] using hc)
  · cases h

theorem change_dpDecTp {op : Option HostOp} {s t : State} (h : execDpDecTp s = .next t) :
    Change op s t := by
  unfold execDpDecTp at h
  split at h
  · split at h
    · cases h
    · next b hb =>
      cases h
      obtain ⟨hc, rfl⟩ := memRead_eq_some.1 hb
      exact .bodyTp (by assumption) hc
  · cases h

theorem change_dpDecFr {op : Option HostOp} {s t : State} (h : execDpDecFr s = .next t) :
    Change op s t := by
  unfold execDpDecFr at h
  split at h
  · split at h <;> cases h
    · exact .enterFr (by assumption) (by assumption)
    · exact .noFps (by assumption) (eq_false_of_ne_true (by assumption))
  · cases h

theorem change_dpDecFrStep {op : Option HostOp} {s t : State} (h : execDpDecFrStep s = .next t) :
    Change op s t := by
  unfold execDpDecFrStep decodeRecord at h
  split at h
  · next hp =>
    have hf : s.offset + s.rs ≤ s.latchL := of_decide_eq_true hp.2
    split at h
    · cases h
    · next b hb =>
      obtain ⟨hc, rfl⟩ := memRead_eq_some.1 hb
      split at h <;> cases h
      · exact .recordFault _ hp.1 hf hc (by assumption)
      · exact .record _ hp.1 hf hc (by assumption)
  · cases h

theorem change_dpDecFrStop {op : Option HostOp} {s t : State} (h : execDpDecFrStop s = .next t) :
    Change op s t := by
  unfold execDpDecFrStop at h
  split at h
  · next hp =>
    cases h
    exact .recordStop hp.1 (Nat.not_le.1 (of_decide_eq_false hp.2))
  · cases h

theorem change_dpEncHdr {op : Option HostOp} {s t : State} (h : execDpEncHdr s = .next t) :
    Change op s t := by
  unfold execDpEncHdr at h
  split at h <;> cases h
  exact .encHdr (by assumption)

theorem change_dpEncTp {op : Option HostOp} {s t : State} (h : execDpEncTp s = .next t) :
    Change op s t := by
  unfold execDpEncTp at h
  split at h
  · split at h
    · cases h
    · split at h <;> cases h
      · exact .encTp _ (by assumption) (by assumption) (by assumption)
      · exact .encTpFault _ (by assumption) (by assumption) (Nat.not_le.1 (by assumption))
  · cases h

theorem change_dpEncFrStep {op : Option HostOp} {s t : State} (h : execDpEncFrStep s = .next t) :
    Change op s t := by
  unfold execDpEncFrStep at h
  split at h
  · split at h
    · cases h
    · cases h
      unfold encodeFrame
      split
      · exact .encFrameError _ _ (by assumption) (by assumption) (by assumption)
      · split
        · exact .encFrame _ _ (by assumption) (by assumption) (by assumption) (by assumption)
        · exact .encFrameFault _ _ (by assumption) (by assumption) (by assumption)
            (Nat.not_le.1 (by assumption))
  · cases h

theorem change_dpEncFrStop {op : Option HostOp} {s t : State} (h : execDpEncFrStop s = .next t) :
    Change op s t := by
  unfold execDpEncFrStop at h
  split at h
  · next hp =>
    cases h
    exact .encStop hp.1 hp.2
  · cases h

/-! The operations that only answer. -/

theorem change_fxTs {op : Option HostOp} {region : Bytes} {src : TsSrc} {s t : State}
    (h : execFxTs region src s = .next t) : Change op s t := by
  unfold execFxTs at h
  split at h <;> cases h <;> exact .answer _

theorem change_fxHdr {op : Option HostOp} {region : Bytes} {s t : State}
    (h : execFxHdr region s = .next t) : Change op s t := by
  unfold execFxHdr at h
  split at h <;> cases h <;> exact .answer _

theorem change_fxSs {op : Option HostOp} {region : Bytes} {s t : State}
    (h : execFxSs region s = .next t) : Change op s t := by
  unfold execFxSs at h
  split at h <;> cases h <;> exact .answer _

theorem change_rdOut {op : Option HostOp} {k : Nat} {s t : State}
    (h : execRdOut k s = .next t) : Change op s t := by
  unfold execRdOut at h
  repeat' split at h
  all_goals cases h
  all_goals exact .answer _

/-! A step. -/

/-- A command write runs the command of the low three bits of the value (10_state.md R34). -/
theorem change_command {s t : State} (v : Nat)
    (h : runSelected (.command v) s = .next t) : Change (some (.write 3 v)) s t := by
  have hv : (BitVec.ofNat 3 v).toNat = v % 8 := by simp
  simp only [runSelected, decode, decodeCommand, hv] at h
  split at h <;> simp only [exec] at h
  · exact change_cmdNop h
  · exact change_cmdClear v rfl (by assumption) h
  · exact change_cmdDecode h
  · exact change_cmdEncode h
  · exact change_cmdAppend h
  all_goals
    cases h
    exact change_refuseReserved s

/-- A small step of the sequencer is one of the changes, whatever the host did. -/
theorem change_smallStep {op : Option HostOp} {s t : State} {ph : Phase} {more : Bool}
    (h : runSelected (.step ph more) s = .next t) : Change op s t := by
  simp only [runSelected, decode] at h
  cases ph <;> cases more <;> simp only [decodeStep, exec] at h
  all_goals first
    | exact change_dpMode h
    | exact change_dpDecTp h
    | exact change_dpDecFr h
    | exact change_dpDecFrStep h
    | exact change_dpDecFrStop h
    | exact change_dpEncHdr h
    | exact change_dpEncTp h
    | exact change_dpEncFrStep h
    | exact change_dpEncFrStop h
    | cases h

/-- A register write is ignored, refused, or done as 44_host_commands.md R208 says. -/
theorem change_hostWrite {op : Option HostOp} {s t : State} {reg v : Nat}
    (h : s.hostWrite reg v = .next t) : Change op s t := by
  unfold State.hostWrite at h
  split at h
  · cases h
  · cases h
    unfold State.writeReg
    split
    · exact .same
    · split
      · exact .refuse _
      · exact .writeReg _ _ (eq_false_of_ne_true (by assumption)) (by assumption)

theorem change_hostRead {op : Option HostOp} {s t : State} {reg : Nat}
    (h : s.hostRead reg = .next t) : Change op s t := by
  unfold State.hostRead at h
  split at h
  · cases h
  · cases h; exact .answer _

theorem change_writeIbuf (s : State) (a : Nat) (b : Byte) :
    Change (some (.writeIbuf a b)) s (s.writeIbuf a b) := by
  unfold State.writeIbuf
  split
  · exact .refuse _
  · split
    · exact .writeIbuf a b rfl (by assumption) (by assumption)
    · exact .refuse _

theorem change_writeApay (s : State) (a : Nat) (b : Byte) :
    Change (some (.writeApay a b)) s (s.writeApay a b) := by
  unfold State.writeApay
  split
  · exact .refuse _
  · split
    · exact .writeApay a b rfl (by assumption) (by assumption)
    · exact .refuse _

/-- What one step can do: it is a reset, or one of the changes of `Change` to the state whose host action
has been taken. -/
theorem step_cases {s t : State} (h : step s = .next t) :
    (∃ rest, s.host = .reset :: rest ∧ t = State.applyReset { s with host := rest })
    ∨ Change s.host.head? { s with host := s.host.tail } t := by
  unfold step at h
  cases hh : s.host with
  | nil =>
    right
    have hs : ({ s with host := [] } : State) = s := by rw [← hh]
    simp only [fetch, hh, State.fetchStep] at h
    simp only [List.head?_nil, List.tail_nil, hs]
    by_cases hp : s.phase = .idle
    · rw [if_pos hp] at h
      cases h
      exact .same
    · rw [if_neg hp] at h
      exact change_smallStep h
  | cons op rest =>
    simp only [List.head?_cons, List.tail_cons]
    cases op with
    | tick =>
      right
      simp only [fetch, hh, State.fetchStep] at h
      by_cases hp : s.phase = .idle
      · rw [if_pos hp] at h
        cases h
        exact .same
      · rw [if_neg hp] at h
        exact change_smallStep h
    | write reg v =>
      right
      by_cases hr : reg = 3
      · subst hr
        simp only [fetch, hh, if_true] at h
        exact change_command v h
      · simp only [fetch, hh, hr, if_false] at h
        exact change_hostWrite h
    | read reg =>
      right
      simp only [fetch, hh] at h
      exact change_hostRead h
    | writeIbuf a b =>
      right
      simp only [fetch, hh] at h
      cases h
      exact change_writeIbuf _ a b
    | writeApay a b =>
      right
      simp only [fetch, hh] at h
      cases h
      exact change_writeApay _ a b
    | rdFrame i =>
      right
      simp only [fetch, hh, runSelected, decode, exec, execRdFrame] at h
      cases h
      exact .answer _
    | rdPay i k =>
      right
      simp only [fetch, hh, runSelected, decode, exec, execRdPay] at h
      cases h
      exact .answer _
    | rdOut k =>
      right
      simp only [fetch, hh, runSelected, decode, exec] at h
      exact change_rdOut h
    | reset =>
      left
      simp only [fetch, hh] at h
      cases h
      exact ⟨rest, rfl, rfl⟩

end Sys2Proof.Machine
end

