-- ==== Sys2Proof/Tests/Slice0.lean ====
section
/-! SUPPORT. The author's own tests: ill-formed operands, decoding from written-out selectors, the vectors of
95_test_vectors.md, and for every statement with hypotheses a concrete state and operands that meet them. -/

open Sys2Proof Sys2Proof.Machine

namespace Sys2Proof.Tests

/-! Helpers. -/

/-- The fixture codec TSX (95_test_vectors.md section 0). -/
def tsx : Codec where
  dec := fun _ b => if b.all (fun x => decide (x = 0xff#8)) then none else some ⟨leNat b⟩
  enc := fun _ t => Vector.ofFn fun i => BitVec.ofNat 8 (t.code / 2 ^ (8 * i.val))

/-- A small parameter set: payloads of at most two bytes. -/
def small : Params where
  offW := 5
  bufCap := 4
  outCap := 4
  frmCap := 1
  payCap := 2
  tsW := 64
  offW_ge := by decide
  bufCap_ge := by decide
  bufCap_le := by decide
  outCap_ge := by decide
  outCap_le := by decide
  frmCap_ge := by decide
  frmCap_pos := by decide
  payCap_ge := by decide

/-- One value of the next state. -/
def after {α : Type} (r : Result) (f : State → α) : Option α :=
  match r with
  | .next t => some (f t)
  | .fault _ => none
  | .refused _ => none

/-- Reset with a lifecycle state and a phase. -/
def at' (st : Status) (ph : Phase) : State := { State.reset with status := st, phase := ph }

/-- A decode at its first small step on a buffer of `L` unwritten bytes. -/
def atMode (L : Nat) : State := { at' .busy .dMode with latchL := L }

/-- A decode in the middle of its records: `P = 4`, `L = 18`, cursor 4. -/
def atRecord (b : Bytes) : State :=
  { at' .busy .dFr with
    ibuf := Memory.setBytes [] 0 b, latchL := 18, latchP := 4, latchPV := true, offset := 4 }

/-- A state whose valid input buffer is these bytes. -/
def holding (b : Bytes) : State :=
  { State.reset with ibuf := Memory.setBytes [] 0 b, latchL := b.length }

/-- A throughput packet of one frame at a phase of its encode. -/
def atEncodeTp (ph : Phase) : State :=
  { at' .busy ph with
    modeWord := 0x00100000#32, frames := [.tp [0xde#8, 0xad#8, 0xbe#8]], ret := .ready }

/-- A framed packet at its frame `f`, with the mode word already emitted. -/
def atEncodeFr (f : MinorFrame) : State :=
  { at' .busy .eFr with frames := [f], ret := .ready, outLen := 4, obuf := Memory.setBytes [] 0 (le32Enc 0#32) }

/-- The output of an EMPTY framed packet is valid (vector V-DPE-2). -/
def encodedEmpty : State :=
  { State.reset with
    modeWord := 0xA5A5A5A5#32, outLen := 4, outValid := true
    obuf := Memory.setBytes [] 0 [0xa5#8, 0xa5#8, 0xa5#8, 0xa5#8] }

/-- A decode fault was taken. -/
def faulted : State := { State.reset with status := .faulted, errKind := some .malformedBuffer, errLen := 3 }

/-- A record of 14 bytes: timestamp 1, header 0xABCD, payload 11 22 33 44. -/
def rec14 : Bytes :=
  [0x01#8, 0x00#8, 0x00#8, 0x00#8, 0x00#8, 0x00#8, 0x00#8, 0x00#8, 0xcd#8, 0xab#8,
   0x11#8, 0x22#8, 0x33#8, 0x44#8]

/-- The record of 20 bytes of property S2. -/
def rec20 : Bytes :=
  [0x01#8, 0x00#8, 0x00#8, 0x00#8, 0x00#8, 0x00#8, 0x00#8, 0x00#8, 0xcd#8, 0xab#8,
   0x34#8, 0x12#8, 0x78#8, 0x56#8, 0xab#8, 0x00#8, 0x11#8, 0x22#8, 0x33#8, 0x44#8]

/-- The record of 20 bytes that property S3 encodes to. -/
def rec20enc : Bytes :=
  [0x01#8, 0x00#8, 0x00#8, 0x00#8, 0x00#8, 0x00#8, 0x00#8, 0x00#8, 0xcd#8, 0xab#8,
   0x12#8, 0x34#8, 0x56#8, 0x78#8, 0x00#8, 0xab#8, 0x11#8, 0x22#8, 0x33#8, 0x44#8]

/-- Fourteen bytes that TSX rejects. -/
def recBad : Bytes := List.replicate 8 0xff#8 ++ [0x02#8, 0x00#8, 0xb0#8, 0xb1#8, 0xb2#8, 0xb3#8]

/-! Well-formedness: one ill-formed term for each check. -/

theorem test_wf_fxPay_short_region :
    Instr.wellFormed Params.vectors (.fxPay [0x00#8] .afterHdr) = false := by decide
theorem test_wf_mfEncTp_payload_too_long :
    Instr.wellFormed small (.mfEncTp [0x01#8, 0x02#8, 0x03#8]) = false := by decide
theorem test_wf_mfEncFr_payload_too_long :
    Instr.wellFormed small (.mfEncFr none 0#16 [0x01#8, 0x02#8, 0x03#8] .rtc) = false := by decide
theorem test_wf_mfEncFr_timestamp_too_wide :
    Instr.wellFormed Params.vectors (.mfEncFr (some ⟨2 ^ 64⟩) 0#16 [] .rtc) = false := by decide
theorem test_wf_mfEncFrs_payload_too_long :
    Instr.wellFormed small (.mfEncFrs none 0#16 0#32 0#16 [0x01#8, 0x02#8, 0x03#8] .rtc) = false := by
  decide
theorem test_wf_mfEncFrs_timestamp_too_wide :
    Instr.wellFormed Params.vectors (.mfEncFrs (some ⟨2 ^ 64⟩) 0#16 0#32 0#16 [] .ptp) = false := by decide
theorem test_wf_rdFrame_index_too_wide :
    Instr.wellFormed Params.vectors (.rdFrame 65536) = false := by decide
theorem test_wf_rdPay_index_too_wide :
    Instr.wellFormed Params.vectors (.rdPay 65536 0) = false := by decide
theorem test_wf_rdPay_position_too_wide :
    Instr.wellFormed Params.vectors (.rdPay 0 65536) = false := by decide
theorem test_wf_rdOut_position_too_wide :
    Instr.wellFormed Params.vectors (.rdOut 65536) = false := by decide
theorem test_wf_accepts :
    Instr.wellFormed Params.vectors (.fxPay rec14 .afterHdr) = true
      ∧ Instr.wellFormed Params.vectors (.mfEncFr (some ⟨2 ^ 64 - 1⟩) 0#16 rec14 .rtc) = true
      ∧ Instr.wellFormed Params.vectors (.rdPay 65535 65535) = true := by decide

/-! Decoding: every constructor from selecting wires written out from 30_encoding.md R101 to R106. -/

theorem test_decode_commands :
    decode (.command 0b000) = .ok .cmdNop ∧ decode (.command 0b001) = .ok .cmdClear
      ∧ decode (.command 0b010) = .ok .cmdDecode ∧ decode (.command 0b011) = .ok .cmdEncode
      ∧ decode (.command 0b100) = .ok .cmdAppend ∧ decode (.command 0b101) = .ok .cmdReserved5
      ∧ decode (.command 0b110) = .ok .cmdReserved6 ∧ decode (.command 0b111) = .ok .cmdReserved7 :=
  ⟨rfl, rfl, rfl, rfl, rfl, rfl, rfl, rfl⟩
/-- Bits above bit 2 of the written value are ignored (10_state.md R34). -/
theorem test_decode_command_upper_bits : decode (.command 0xFFFFFFFA) = .ok .cmdDecode := rfl
theorem test_decode_dpMode : decode (.step .dMode false) = .ok .dpMode := rfl
theorem test_decode_dpDecTp : decode (.step .dTp false) = .ok .dpDecTp := rfl
theorem test_decode_dpDecFr : decode (.step .dFre false) = .ok .dpDecFr := rfl
theorem test_decode_dpDecFrStep : decode (.step .dFr true) = .ok .dpDecFrStep := rfl
theorem test_decode_dpDecFrStop : decode (.step .dFr false) = .ok .dpDecFrStop := rfl
theorem test_decode_dpEncHdr : decode (.step .eHdr false) = .ok .dpEncHdr := rfl
theorem test_decode_dpEncTp : decode (.step .eTp false) = .ok .dpEncTp := rfl
theorem test_decode_dpEncFrStep : decode (.step .eFr true) = .ok .dpEncFrStep := rfl
theorem test_decode_dpEncFrStop : decode (.step .eFr false) = .ok .dpEncFrStop := rfl
theorem test_decode_idle : decode (.step .idle true) = .error .idlePhase := rfl
theorem test_decode_mfDecTp :
    decode (.dsel 0b10#2 rec14 .rtc) = .ok (.mfDecTp rec14)
      ∧ decode (.dsel 0b11#2 rec14 .rtc) = .ok (.mfDecTp rec14) := ⟨rfl, rfl⟩
theorem test_decode_mfDecFr : decode (.dsel 0b00#2 rec14 .ptp) = .ok (.mfDecFr rec14 .ptp) := rfl
theorem test_decode_mfDecFrs : decode (.dsel 0b01#2 rec20 .rtc) = .ok (.mfDecFrs rec20 .rtc) := rfl
theorem test_decode_fxTs : decode (.part false 0 rec14 .ptp) = .ok (.fxTs rec14 .ptp) := rfl
theorem test_decode_fxHdr : decode (.part true 1 rec20 .rtc) = .ok (.fxHdr rec20) := rfl
theorem test_decode_fxSs : decode (.part true 2 rec20 .rtc) = .ok (.fxSs rec20) := rfl
theorem test_decode_fxPay :
    decode (.part false 2 rec14 .rtc) = .ok (.fxPay rec14 .afterHdr)
      ∧ decode (.part true 3 rec20 .rtc) = .ok (.fxPay rec20 .afterSs) := ⟨rfl, rfl⟩
theorem test_decode_no_such_part :
    decode (.part false 3 rec14 .rtc) = .error .noSuchPart
      ∧ decode (.part true 4 rec20 .rtc) = .error .noSuchPart := ⟨rfl, rfl⟩
theorem test_decode_mfEncTp :
    decode (.esel 0b10#2 (FrameWires.ofPayload rec14) .rtc) = .ok (.mfEncTp rec14) := rfl
theorem test_decode_mfEncFr :
    decode (.esel 0b00#2 ⟨some ⟨1⟩, 0xABCD#16, 0#32, 0#16, [0x11#8]⟩ .ptp)
      = .ok (.mfEncFr (some ⟨1⟩) 0xABCD#16 [0x11#8] .ptp) := rfl
theorem test_decode_mfEncFrs :
    decode (.esel 0b01#2 ⟨none, 1#16, 0xFE6B2840#32, 2#16, []⟩ .rtc)
      = .ok (.mfEncFrs none 1#16 0xFE6B2840#32 2#16 [] .rtc) := rfl
theorem test_decode_ports :
    decode (.portFrame 3) = .ok (.rdFrame 3) ∧ decode (.portPay 1 2) = .ok (.rdPay 1 2)
      ∧ decode (.portOut 7) = .ok (.rdOut 7) := ⟨rfl, rfl, rfl⟩

/-! The words of the opcode table as the host numbers their bits (log entry 13). -/

theorem test_word_commands :
    decodeTableWord 8 0 = some .cmdNop ∧ decodeTableWord 8 4 = some .cmdAppend
      ∧ decodeTableWord 8 7 = some .cmdReserved7 := by decide
/-- Bit 20 set: the throughput operations (30_encoding.md R100). -/
theorem test_word_mode_bit_set : decodeTableWord 24 0x100000 = some .dpDecTp := by decide
theorem test_word_mode_bit_clear : decodeTableWord 24 0x000000 = some .dpDecFr := by decide
theorem test_word_mode_word : decodeTableWord 32 0 = some .dpMode := by decide
theorem test_word_no_item : decodeTableWord 16 0 = none := by decide
theorem test_fetch_command :
    after (step (State.reset.withFetchWord 8 2)) (fun t => (t.status, t.phase)) = some (.busy, .dMode) := by
  decide
theorem test_fetch_routed :
    after (step (State.reset.withFetchWord 24 0)) (fun t => (t.status, t.errKind))
      = some (.faulted, some .configurationError) := by decide
/-- Vector V-DP-4: a mode word alone, bit 20 set. -/
theorem test_fetch_mode_word :
    after (step (State.reset.withFetchWord 32 0x00100000)) (fun t => (t.modeWord, t.offset, t.phase))
      = some (0x00100000#32, 4, .dTp) := by decide

/-! Commands (95_test_vectors.md section 2.7). -/

theorem test_cmdNop : after (exec .cmdNop faulted) (fun t => t.status) = some .faulted := by decide
theorem test_cmdNop_busy :
    after (exec .cmdNop (at' .busy .dFr)) (fun t => t.refCode) = some (some .locked) := by decide
/-- Vector V-CMD-4. -/
theorem test_cmdClear :
    after (exec .cmdClear { faulted with fps := 4, offset := 18 })
      (fun t => (t.status, t.errKind, t.offset, t.fps)) = some (.empty, none, 0, 4) := by decide
/-- Vector V-CMD-18. -/
theorem test_cmdClear_latches_source :
    after (exec .cmdClear { State.reset with ctrl := 2#32 }) (fun t => t.latchS) = some .ptp := by decide
theorem test_cmdDecode :
    after (exec .cmdDecode { State.reset with bufLen := 34, fps := 4, fpsSet := true, ctrl := 1#32 })
      (fun t => (t.latchL, t.latchP, t.latchPV, t.latchX)) = some (34, 4, true, true) := by decide
/-- Vector V-CMD-1. -/
theorem test_cmdDecode_ready :
    after (exec .cmdDecode (at' .ready .idle)) (fun t => (t.refCode, t.status))
      = some (some .badState, .ready) := by decide
theorem test_cmdEncode :
    after (exec .cmdEncode State.reset) (fun t => (t.status, t.phase, t.ret)) = some (.busy, .eHdr, .empty) := by
  decide
/-- Vector V-CMD-7. -/
theorem test_cmdEncode_empty_throughput :
    after (exec .cmdEncode { State.reset with modeWord := 0x00100000#32 }) (fun t => t.refCode)
      = some (some .badState) := by decide
/-- Vector V-CMD-13. -/
theorem test_cmdAppend :
    after (exec .cmdAppend { State.reset with
      aFlags := 0b111#3, modeWord := 0x00100000#32, aPlen := 2
      apay := Memory.setBytes [] 0 [0x0a#8, 0x0b#8] }) (fun t => t.frames)
      = some [.tp [0x0a#8, 0x0b#8]] := by decide
/-- Vector V-CMD-5. -/
theorem test_cmdAppend_mode :
    after (exec .cmdAppend { State.reset with aFlags := 0b001#3 }) (fun t => (t.refCode, t.frames))
      = some (some .invariant, []) := by decide
theorem test_cmdReserved5 :
    after (exec .cmdReserved5 State.reset) (fun t => t.refCode) = some (some .badCmd) := by decide
/-- Vector V-CMD-9. -/
theorem test_cmdReserved6 :
    after (exec .cmdReserved6 (at' .faulted .idle)) (fun t => t.refCode) = some (some .badCmd) := by decide
/-- Vector V-CMD-12: the first refusal's code stays. -/
theorem test_cmdReserved7 :
    after (exec .cmdReserved7 { State.reset with refCode := some .badState }) (fun t => t.refCode)
      = some (some .badState) := by decide

/-! Field operations (section 2.1). -/

/-- Vectors V-FX-1 to V-FX-3. -/
theorem test_fxTs :
    fxTs tsx rec14 .rtc = .ok ⟨1⟩ ∧ fxTs tsx recBad .rtc = .error .malformedBuffer
      ∧ fxTs tsx (rec14.take 7) .rtc = .error .malformedBuffer := by decide
theorem test_fxTs_short :
    after (exec (.fxTs (rec14.take 7) .ptp) State.reset) (fun t => t.answer)
      = some (.fail .malformedBuffer) := by decide
/-- Vectors V-FX-5 and V-FX-8. -/
theorem test_fxHdr :
    fxHdr rec14 = .ok 0xABCD#16 ∧ fxHdr (rec14.take 9) = .error .malformedBuffer := by decide
theorem test_fxHdr_answer :
    after (exec (.fxHdr rec14) State.reset) (fun t => t.answer) = some (.hdr 0xABCD#16) := by decide
/-- Vectors V-FX-9 and V-FX-14. -/
theorem test_fxSs :
    fxSs rec20 = .ok (0x12345678#32, 0x00AB#16) ∧ fxSs (rec20.take 15) = .error .malformedBuffer := by decide
/-- Vector V-FX-13. -/
theorem test_fxSs_answer :
    after (exec (.fxSs (rec14.take 10 ++ [0x6b#8, 0xfe#8, 0x40#8, 0x28#8, 0x01#8, 0x00#8])) State.reset)
      (fun t => t.answer) = some (.ss 0xFE6B2840#32 0x0001#16) := by decide
/-- Vector V-FX-15. -/
theorem test_fxPay :
    after (exec (.fxPay rec14 .afterHdr) State.reset) (fun t => t.answer)
      = some (.payload [0x11#8, 0x22#8, 0x33#8, 0x44#8]) := by decide
/-- Vector V-FX-16. -/
theorem test_fxPay_empty :
    after (exec (.fxPay (rec20.take 16) .afterSs) State.reset) (fun t => t.answer)
      = some (.payload []) := by decide

/-! Minor frames (sections 2.2 and 2.3, properties S2 and S3). -/

/-- Vector V-DEC-3. -/
theorem test_mfDecTp :
    after (exec (.mfDecTp recBad) State.reset) (fun t => t.answer) = some (.frame (.tp recBad)) := by decide
/-- Vectors V-DEC-4 and V-DEC-6. -/
theorem test_mfDecFr :
    mfDecFr tsx rec14 .rtc = .ok (.fr (some ⟨1⟩) 0xABCD#16 none [0x11#8, 0x22#8, 0x33#8, 0x44#8])
      ∧ mfDecFr tsx recBad .rtc = .error .malformedBuffer := by decide
/-- Vector V-DEC-7. -/
theorem test_mfDecFr_short :
    after (exec (.mfDecFr (rec14.take 7) .rtc) State.reset) (fun t => t.answer)
      = some (.fail .malformedBuffer) := by decide
/-- Property S2 and vector V-DEC-10. -/
theorem test_mfDecFrs :
    mfDecFrs tsx rec20 .rtc
      = .ok (.fr (some ⟨1⟩) 0xABCD#16 (some (0x12345678#32, 0x00AB#16)) [0x11#8, 0x22#8, 0x33#8, 0x44#8])
      ∧ mfDecFrs tsx rec14 .rtc = .error .malformedBuffer := by decide
/-- Property S3: the sync word and the SFID come back swapped. -/
theorem test_mfDecFrs_swapped :
    mfDecFrs tsx rec20enc .rtc
      = .ok (.fr (some ⟨1⟩) 0xABCD#16 (some (0x34127856#32, 0xAB00#16)) [0x11#8, 0x22#8, 0x33#8, 0x44#8]) := by
  decide
/-- Vector V-ENC-1. -/
theorem test_mfEncTp :
    after (exec (.mfEncTp [0xde#8, 0xad#8]) State.reset) (fun t => t.answer)
      = some (.bytes [0xde#8, 0xad#8]) := by decide
/-- Vector V-ENC-3. -/
theorem test_mfEncFr :
    mfEncFr tsx (some ⟨1⟩) 0xABCD#16 [0x11#8, 0x22#8, 0x33#8, 0x44#8] .rtc = .ok rec14 := by decide
/-- Vector V-ENC-4. -/
theorem test_mfEncFr_no_timestamp :
    after (exec (.mfEncFr none 1#16 [] .rtc) State.reset) (fun t => t.answer)
      = some (.fail .configurationError) := by decide
/-- Property S3. -/
theorem test_mfEncFrs :
    mfEncFrs tsx (some ⟨1⟩) 0xABCD#16 0x12345678#32 0x00AB#16 [0x11#8, 0x22#8, 0x33#8, 0x44#8] .rtc
      = .ok rec20enc := by decide
/-- Vector V-ENC-10. -/
theorem test_mfEncFrs_no_timestamp :
    after (exec (.mfEncFrs none 0#16 0#32 0#16 [0x01#8] .rtc) State.reset) (fun t => t.answer)
      = some (.fail .configurationError) := by decide

/-! The segmenter (sections 2.4 and 2.5). -/

/-- Vector V-DP-6: bit 20 clear is framed. -/
theorem test_dpMode :
    after (exec .dpMode { atMode 4 with ibuf := Memory.setBytes [] 0 [0xff#8, 0xff#8, 0xef#8, 0xff#8] })
      (fun t => (t.modeWord, t.offset, t.phase)) = some (0xFFEFFFFF#32, 4, .dFre) := by decide
/-- Vector V-DP-2. -/
theorem test_dpMode_short :
    after (exec .dpMode (atMode 3)) (fun t => (t.status, t.errKind, t.errCause, t.errOffset, t.errLen))
      = some (.faulted, some .malformedBuffer, none, 0, 3) := by decide
/-- Property S4. -/
theorem test_dpDecTp :
    after (exec .dpDecTp { at' .busy .dTp with
      latchL := 7, offset := 4, ibuf := Memory.setBytes [] 4 [0xde#8, 0xad#8, 0xbe#8] })
      (fun t => (t.frames, t.offset, t.status)) = some ([.tp [0xde#8, 0xad#8, 0xbe#8]], 7, .ready) := by decide
/-- Vector V-DP-5. -/
theorem test_dpDecFr_never_written :
    after (exec .dpDecFr { at' .busy .dFre with latchL := 24, offset := 4 })
      (fun t => (t.errKind, t.errCause, t.errOffset, t.errLen))
      = some (some .configurationError, none, 4, 24) := by decide
theorem test_dpDecFr :
    after (exec .dpDecFr { at' .busy .dFre with latchPV := true }) (fun t => t.phase) = some .dFr := by decide
/-- The first record of a buffer whose record is `rec14`. -/
theorem test_dpDecFrStep :
    after (decodeRecord tsx (atRecord ([0x00#8, 0x00#8, 0x00#8, 0x00#8] ++ rec14)))
      (fun t => (t.frames, t.offset))
      = some ([.fr (some ⟨1⟩) 0xABCD#16 none [0x11#8, 0x22#8, 0x33#8, 0x44#8]], 18) := by decide
/-- Program P5's bad record: the fault is wrapped. -/
theorem test_dpDecFrStep_fault :
    after (decodeRecord tsx (atRecord ([0x00#8, 0x00#8, 0x00#8, 0x00#8] ++ recBad)))
      (fun t => (t.status, t.errKind, t.errCause, t.errOffset, t.offset))
      = some (.faulted, some .offsetDecodeError, some .malformedBuffer, 4, 4) := by decide
theorem test_dpDecFrStop :
    after (exec .dpDecFrStop { atRecord [] with offset := 5 }) (fun t => (t.status, t.phase, t.offset))
      = some (.ready, .idle, 5) := by decide
/-- Vector V-SEG-12: the last pad may be missing. -/
theorem test_segmenter_missing_pad :
    (match dpDecode tsx (List.replicate 39 0x00#8) false 7 true .rtc with
      | .ok _ fr off => some (fr.length, off)
      | .fault _ _ _ _ => none) = some (2, 40) := by decide

/-! Encoding a packet (section 2.6). -/

theorem test_dpEncHdr :
    after (exec .dpEncHdr { at' .busy .eHdr with modeWord := 0xC0100007#32 })
      (fun t => (t.obufSlice 0 4, t.outLen, t.phase)) = some ([0x07#8, 0x00#8, 0x10#8, 0xc0#8], 4, .eTp) := by
  decide
/-- Vector V-DPE-3: no pad. -/
theorem test_dpEncTp :
    after (exec .dpEncTp (atEncodeTp .eTp)) (fun t => (t.obufSlice 4 3, t.outLen, t.outValid))
      = some ([0xde#8, 0xad#8, 0xbe#8], 7, true) := by decide
/-- Property S5: a record of 13 bytes is followed by one zero byte. -/
theorem test_dpEncFrStep :
    ((encodeFrame tsx (.fr (some ⟨1⟩) 0xABCD#16 none [0x11#8, 0x22#8, 0x33#8])
      (atEncodeFr (.tp []))).obufSlice 14 4, (encodeFrame tsx (.fr (some ⟨1⟩) 0xABCD#16 none
      [0x11#8, 0x22#8, 0x33#8]) (atEncodeFr (.tp []))).outLen)
      = ([0x11#8, 0x22#8, 0x33#8, 0x00#8], 18) := by decide
/-- Vector V-DPE-6: a missing timestamp. -/
theorem test_dpEncFrStep_no_timestamp :
    after (exec .dpEncFrStep (atEncodeFr (.fr none 1#16 none [])))
      (fun t => (t.status, t.errKind, t.errIndex, t.outLen))
      = some (.ready, some .configurationError, 0, 0) := by decide
theorem test_dpEncFrStop :
    after (exec .dpEncFrStop { atEncodeFr (.tp []) with eidx := 1 }) (fun t => (t.outValid, t.status))
      = some (true, .ready) := by decide

/-! Read-out. -/

theorem test_rdFrame :
    after (exec (.rdFrame 0) { at' .ready .idle with frames := [.fr (some ⟨1⟩) 2#16 none [0xa0#8]] })
      (fun t => t.answer) = some (.frameView (some ⟨.fr, some ⟨1⟩, some 2#16, none, 1⟩)) := by decide
/-- Vector V-CMD-16. -/
theorem test_rdFrame_out_of_range :
    after (exec (.rdFrame 2) (at' .ready .idle)) (fun t => t.answer) = some (.frameView none) := by decide
theorem test_rdPay :
    after (exec (.rdPay 0 1) { at' .ready .idle with frames := [.tp [0xa0#8, 0xa1#8]] }) (fun t => t.answer)
      = some (.byte (some 0xa1#8)) := by decide
theorem test_rdPay_past_end :
    after (exec (.rdPay 0 2) { at' .ready .idle with frames := [.tp [0xa0#8, 0xa1#8]] }) (fun t => t.answer)
      = some (.byte none) := by decide
theorem test_rdOut : after (exec (.rdOut 3) encodedEmpty) (fun t => t.answer) = some (.byte (some 0xa5#8)) := by
  decide
/-- Vector V-CMD-17. -/
theorem test_rdOut_invalid : after (exec (.rdOut 0) State.reset) (fun t => t.answer) = some (.byte none) := by
  decide

/-! Host accesses. -/

/-- Vector V-CMD-15. -/
theorem test_write_ctrl :
    after (State.reset.hostWrite 0 0xFFFFFFFF) (fun t => t.regValue .ctrl) = some 3 := by decide
/-- Vector V-CMD-11. -/
theorem test_write_bufLen_too_large :
    after (State.reset.hostWrite 2 4097) (fun t => (t.bufLen, t.refCode)) = some (0, some .capacity) := by decide
/-- Vector V-CMD-8. -/
theorem test_write_modeWord_ready :
    after ((at' .ready .idle).hostWrite 5 1) (fun t => (t.modeWord, t.refCode))
      = some (0#32, some .badState) := by decide
/-- Vector V-CMD-10. -/
theorem test_write_busy :
    after ((at' .busy .dFr).hostWrite 1 9) (fun t => (t.fps, t.refCode)) = some (0, some .locked) := by decide
/-- Program P3's STATUS. -/
theorem test_status :
    { State.reset with
      status := .ready, outValid := true, modeWord := 0xC0100007#32 : State }.statusWord = 0x61#32 := by
  decide

/-! Witnesses: for every statement of Certificates/Slice0/Obligations.lean that has hypotheses, a concrete
state and operands that meet all of them together, clause by clause, at a boundary where there is one. -/

theorem test_witness_ResetFromAnyState : ∃ (s : State) (rest : List HostOp), s.host = .reset :: rest :=
  ⟨{ at' .busy .eFr with host := [.reset, .tick] }, [.tick], rfl⟩
theorem test_witness_StepRunsDecodedInstruction :
    (∃ s t sel i, fetch s = .run sel t ∧ decode sel = .ok i)
      ∧ (∃ (s : State) (rest : List HostOp) (v : Nat), s.host = .write 3 v :: rest)
      ∧ (∃ (s : State) (rest : List HostOp) (i : Nat), s.host = .rdFrame i :: rest)
      ∧ (∃ (s : State) (rest : List HostOp) (i k : Nat), s.host = .rdPay i k :: rest)
      ∧ (∃ (s : State) (rest : List HostOp) (k : Nat), s.host = .rdOut k :: rest)
      ∧ (∃ s : State, s.host = [] ∧ s.phase ≠ .idle)
      ∧ (∃ (s : State) (rest : List HostOp), s.host = .tick :: rest ∧ s.phase ≠ .idle)
      ∧ (∃ s : State, s.host = [] ∧ s.phase = .idle)
      ∧ (∃ (s : State) (rest : List HostOp), s.host = .tick :: rest ∧ s.phase = .idle)
      ∧ (∃ (s : State) (rest : List HostOp) (r v : Nat), s.host = .write r v :: rest ∧ r ≠ 3)
      ∧ (∃ (s : State) (rest : List HostOp) (r : Nat), s.host = .read r :: rest)
      ∧ (∃ (s : State) (rest : List HostOp) (a : Nat) (b : Byte), s.host = .writeIbuf a b :: rest)
      ∧ (∃ (s : State) (rest : List HostOp) (a : Nat) (b : Byte), s.host = .writeApay a b :: rest) :=
  ⟨⟨at' .busy .dFre, _, _, _, rfl, rfl⟩, ⟨{ State.reset with host := [.write 3 2] }, _, _, rfl⟩,
    ⟨{ State.reset with host := [.rdFrame 0] }, _, _, rfl⟩, ⟨{ State.reset with host := [.rdPay 0 0] }, _, _, _, rfl⟩,
    ⟨{ State.reset with host := [.rdOut 0] }, _, _, rfl⟩, ⟨at' .busy .eHdr, by decide⟩,
    ⟨{ at' .busy .eHdr with host := [.tick] }, [], by decide⟩, ⟨State.reset, by decide⟩,
    ⟨{ State.reset with host := [.tick] }, [], by decide⟩,
    ⟨{ State.reset with host := [.write 21 4092] }, [], 21, 4092, by decide⟩,
    ⟨{ State.reset with host := [.read 17] }, _, _, rfl⟩,
    ⟨{ State.reset with host := [.writeIbuf 4095 1#8] }, _, _, _, rfl⟩,
    ⟨{ State.reset with host := [.writeApay 4091 1#8] }, _, _, _, rfl⟩⟩
theorem test_witness_CommandCodesDecode :
    8 % 8 = 0 ∧ 1 % 8 = 1 ∧ 2 % 8 = 2 ∧ 3 % 8 = 3 ∧ 12 % 8 = 4 ∧ 5 % 8 = 5 ∧ 6 % 8 = 6 ∧ 0xFFFFFFFF % 8 = 7 := by
  decide
theorem test_witness_NopChangesNothing : faulted.status ≠ .busy ∧ (at' .busy .dFr).status = .busy := by decide
theorem test_witness_ClearConstructsEmptyPacket :
    faulted.status ≠ .busy ∧ (at' .busy .dFr).status = .busy := by decide
theorem test_witness_DecodeStartStep : encodedEmpty.status = .empty := by decide
theorem test_witness_EncodeStartStep :
    (at' .ready .idle).status = .ready
      ∧ (encodedEmpty.status = .empty ∧ encodedEmpty.modeWord.getLsbD 20 = false) := by decide
/-- A framed and a throughput frame, with the store one below FRM_CAP and the payload at PAY_CAP. -/
theorem test_witness_AppendAddsStagedFrame :
    ∀ s ∈ [{ State.resetWith small 0 with aPlen := 2, aFlags := 0b110#3 },
        { State.resetWith small 0 with aPlen := 2, aFlags := 0b001#3, modeWord := 0x00100000#32 }],
      (s.status = .empty ∨ s.status = .ready) ∧ s.aFlags.getLsbD 0 = s.modeWord.getLsbD 20
        ∧ ¬ (s.modeWord.getLsbD 20 = true ∧ 1 ≤ s.frames.length)
        ∧ s.frames.length < s.params.frmCap ∧ s.aPlen ≤ s.params.payCap := by decide
theorem test_witness_AppendChecksInOrder :
    (at' .busy .eFr).status = .busy ∧ faulted.status = .faulted
      ∧ (∃ s : State, (s.status = .empty ∨ s.status = .ready) ∧ s.aTp ≠ s.tp)
      ∧ (∃ s : State, (s.status = .empty ∨ s.status = .ready) ∧ s.aTp = s.tp ∧ s.tp = true
          ∧ 1 ≤ s.frameCount)
      ∧ (∃ s : State, (s.status = .empty ∨ s.status = .ready) ∧ s.aTp = s.tp
          ∧ ¬ (s.tp = true ∧ 1 ≤ s.frameCount) ∧ s.params.frmCap ≤ s.frameCount) :=
  ⟨rfl, rfl, ⟨{ State.reset with aFlags := 1#3 }, by decide⟩,
    ⟨{ atEncodeTp .idle with status := .ready, aFlags := 1#3 }, by decide⟩,
    ⟨{ State.resetWith small 0 with status := .ready, frames := [.fr none 0#16 none []] }, by decide⟩⟩
theorem test_witness_CommandAcceptanceTable :
    (at' .busy .dTp).status = .busy ∧ faulted.status ≠ .busy ∧ State.reset.status = .empty
      ∧ State.reset.tp = false ∧ (atEncodeTp .idle).tp = true ∧ (at' .ready .idle).status = .ready
      ∧ faulted.status = .faulted
      ∧ (State.reset.status = .empty ∨ State.reset.status = .ready) ∧ State.reset.appendRefusal = none
      ∧ State.reset.aPlen ≤ State.reset.params.payCap := by decide
theorem test_witness_CommandAcceptanceTable_empty_throughput :
    ∃ s : State, s.status = .empty ∧ s.tp = true :=
  ⟨{ State.reset with modeWord := 0x00100000#32 }, by decide⟩
theorem test_witness_RefusalRecordsFirstCode :
    State.reset.refCode = none ∧ (State.reset.refuse .locked).refCode ≠ none := by decide
theorem test_witness_TimestampField : 8 ≤ (rec14.take 8).length ∧ (rec14.take 7).length < 8 := by decide
theorem test_witness_HeaderField :
    ((rec14.take 10)[8]? = some 0xcd#8 ∧ (rec14.take 10)[9]? = some 0xab#8) ∧ (rec14.take 9).length < 10 := by
  decide
theorem test_witness_SyncField :
    (∀ r ∈ [rec20.take 16],
      r[10]? = some 0x34#8 ∧ r[11]? = some 0x12#8 ∧ r[12]? = some 0x78#8 ∧ r[13]? = some 0x56#8
        ∧ r[14]? = some 0xab#8 ∧ r[15]? = some 0x00#8) ∧ (rec20.take 15).length < 16 := by decide
theorem test_witness_PayloadField : 0 < (fxPay rec14 .afterHdr).length := by decide
theorem test_witness_FramedRecordDecode :
    ((rec14.take 10)[8]? = some 0xcd#8 ∧ (rec14.take 10)[9]? = some 0xab#8) ∧ (rec14.take 9).length < 10 := by
  decide
theorem test_witness_FramedRecordDecodeWithSync :
    (∀ r ∈ [rec20.take 16],
      r[8]? = some 0xcd#8 ∧ r[9]? = some 0xab#8 ∧ r[10]? = some 0x34#8 ∧ r[11]? = some 0x12#8
        ∧ r[12]? = some 0x78#8 ∧ r[13]? = some 0x56#8 ∧ r[14]? = some 0xab#8 ∧ r[15]? = some 0x00#8)
      ∧ (rec20.take 15).length < 16 := by decide
theorem test_witness_ModeWordStep :
    ((atMode 4).phase = .dMode ∧ 4 ≤ (atMode 4).latchL) ∧ ((atMode 3).phase = .dMode ∧ (atMode 3).latchL < 4) := by
  decide
theorem test_witness_ThroughputBodyStep :
    ∀ s ∈ [{ at' .busy .dTp with latchL := 4, offset := 4 }, { at' .busy .dTp with latchL := 4096, offset := 4 }],
      s.phase = .dTp ∧ 4 ≤ s.latchL ∧ s.latchL ≤ s.params.bufCap := by decide
theorem test_witness_FramedEntryStep :
    (∃ s : State, s.phase = .dFre ∧ s.latchPV = true) ∧ (∃ s : State, s.phase = .dFre ∧ s.latchPV = false) :=
  ⟨⟨{ at' .busy .dFre with latchPV := true }, by decide⟩, ⟨at' .busy .dFre, by decide⟩⟩
/-- An exact fit, without extraction and with it at the shortest record that has a sync group. -/
theorem test_witness_RecordStep :
    (∃ s : State, s.phase = .dFr ∧ s.offset + (s.latchP + 10) ≤ s.latchL ∧ s.latchL ≤ s.params.bufCap)
      ∧ (∃ (s : State) (t : TS), s.offset + (s.latchP + 10) ≤ s.params.bufCap ∧ s.latchX = false
        ∧ tsx.dec s.latchS (s.ibufSlice s.offset 8) = some t)
      ∧ (∃ (s : State) (t : TS), s.offset + (s.latchP + 10) ≤ s.params.bufCap ∧ s.latchX = true ∧ 6 ≤ s.latchP
        ∧ tsx.dec s.latchS (s.ibufSlice s.offset 8) = some t) :=
  ⟨⟨atRecord [], by decide⟩, ⟨atRecord ([0x00#8, 0x00#8, 0x00#8, 0x00#8] ++ rec14), ⟨1⟩, by decide⟩,
    ⟨{ atRecord ([0x00#8, 0x00#8, 0x00#8, 0x00#8] ++ rec20) with latchX := true, latchP := 6, latchL := 20 }, ⟨1⟩,
      by decide⟩⟩
theorem test_witness_IterationStopStep :
    (∃ s : State, s.phase = .dFr ∧ s.latchL + 1 = s.offset + (s.latchP + 10))
      ∧ ∃ s : State, s.phase = .dFr ∧ s.offset + (s.latchP + 10) = s.latchL :=
  ⟨⟨{ atRecord [] with offset := 5 }, by decide⟩, ⟨atRecord [], by decide⟩⟩
theorem test_witness_FaultEntries : State.reset.errKind = none ∧ faulted.errKind ≠ none := by decide
theorem test_witness_EncodeHeaderStep : (atEncodeTp .eHdr).phase = .eHdr := rfl
/-- An output that fills OUT_CAP exactly, and one that is a byte too long. -/
theorem test_witness_EncodeThroughputStep :
    (∃ (s : State) (pay : Bytes) (rest : List MinorFrame), s.phase = .eTp ∧ s.frames = .tp pay :: rest
      ∧ 4 + pay.length ≤ s.params.outCap ∧ 0 < pay.length)
      ∧ (∃ (s : State) (pay : Bytes) (rest : List MinorFrame), s.phase = .eTp ∧ s.frames = .tp pay :: rest
        ∧ 4 + pay.length = s.params.outCap)
      ∧ (∃ (s : State) (pay : Bytes) (rest : List MinorFrame), s.phase = .eTp ∧ s.frames = .tp pay :: rest
        ∧ s.params.outCap < 4 + pay.length) :=
  ⟨⟨atEncodeTp .eTp, [0xde#8, 0xad#8, 0xbe#8], [], by decide⟩,
    ⟨{ atEncodeTp .eTp with params := small, frames := [.tp []] }, [], [], by decide⟩,
    ⟨{ atEncodeTp .eTp with params := small, frames := [.tp [0x01#8]] }, [0x01#8], [], by decide⟩⟩
/-- No timestamp; an odd record that fits, with and without sync group; a record that does not fit. -/
theorem test_witness_EncodeFrameStep :
    (∃ (s : State) (hdr : U16) (ss : Option (U32 × U16)) (pay : Bytes),
      s.phase = .eFr ∧ s.frames[s.eidx]? = some (.fr none hdr ss pay))
      ∧ (∀ ss ∈ [none, some (0xFE6B2840#32, 1#16)], ∀ p ∈ [Params.vectors, small], ∃ s : State,
        s.params = p ∧ s.phase = .eFr ∧ s.outLen = 4
          ∧ s.frames[s.eidx]? = some (.fr (some ⟨1⟩) 2#16 ss [0x11#8])) :=
  ⟨⟨atEncodeFr (.fr none 0#16 none []), 0#16, none, [], rfl, rfl⟩, fun ss _ p _ =>
    ⟨{ atEncodeFr (.fr (some ⟨1⟩) 2#16 ss [0x11#8]) with params := p }, rfl, rfl, rfl, rfl⟩⟩
/-- The lengths of those records, whatever the codec: 11 and 17 bytes fit 4096 and do not fit 4. -/
theorem test_witness_EncodeFrameStep_capacity (w : Nat) (t : TS) (src : TsSrc) :
    ∀ n, n = ((Config.tsEnc w src (t.bits w)).toList ++ le16Enc 2#16 ++ [] ++ [0x11#8]).length
        ∨ n = ((Config.tsEnc w src (t.bits w)).toList ++ le16Enc 2#16 ++ (be32Enc 0xFE6B2840#32 ++ be16Enc 1#16)
          ++ [0x11#8]).length →
      4 + n + n % 2 ≤ Params.vectors.outCap ∧ small.outCap < 4 + n + n % 2 ∧ n % 2 = 1 := by
  intro n hn
  simp [le16Enc, be32Enc, be16Enc] at hn
  rcases hn with rfl | rfl <;> decide
theorem test_witness_EncodeStopStep : ∃ s : State, s.phase = .eFr ∧ s.eidx = s.frames.length :=
  ⟨{ atEncodeFr (.fr none 0#16 none []) with eidx := 1 }, by decide⟩
theorem test_witness_ReadFramePort :
    (∃ (s : State) (i : Nat) (f : MinorFrame), (s.status = .empty ∨ s.status = .ready) ∧ s.frames[i]? = some f)
      ∧ State.reset.frames.length ≤ 0 ∧ (at' .busy .eFr).status = .busy ∧ faulted.status = .faulted :=
  ⟨⟨{ atEncodeTp .idle with status := .ready }, 0, _, .inr rfl, rfl⟩, by decide⟩
theorem test_witness_ReadPayloadPort :
    (∃ (s : State) (i k : Nat) (f : MinorFrame) (b : Byte), (s.status = .empty ∨ s.status = .ready)
      ∧ s.frames[i]? = some f ∧ f.payload[k]? = some b)
      ∧ (∃ (s : State) (i k : Nat) (f : MinorFrame), s.frames[i]? = some f ∧ f.payload.length ≤ k)
      ∧ State.reset.frames.length ≤ 0 ∧ (at' .busy .eFr).status = .busy ∧ faulted.status = .faulted :=
  ⟨⟨{ atEncodeTp .idle with status := .ready }, 0, 2, _, 0xbe#8, .inr rfl, rfl, rfl⟩,
    ⟨atEncodeTp .idle, 0, 3, _, rfl, by decide⟩, by decide⟩
theorem test_witness_ReadOutPort :
    (encodedEmpty.outValid = true ∧ encodedEmpty.status ≠ .busy ∧ 3 < encodedEmpty.outLen
      ∧ encodedEmpty.outLen ≤ encodedEmpty.params.outCap)
      ∧ State.reset.outValid = false ∧ (at' .busy .eFr).status = .busy ∧ encodedEmpty.outLen ≤ 4 := by decide
theorem test_witness_RegisterWritesOutsideBusy : faulted.status ≠ .busy ∧ State.reset.status ≠ .busy := by decide
theorem test_witness_WritesLockedWhileBusy : (at' .busy .eTp).status = .busy := rfl
theorem test_witness_ByteWritesChangeOneByte :
    State.reset.status ≠ .busy ∧ 4095 < State.reset.params.bufCap ∧ State.reset.params.bufCap ≤ 4096
      ∧ 4091 < State.reset.params.payCap ∧ State.reset.params.payCap ≤ 4092 := by decide
theorem test_witness_RegisterReads :
    State.reset.errCause = none
      ∧ ∃ s : State, s.errCause = some .malformedBuffer :=
  ⟨rfl, { faulted with errKind := some .offsetDecodeError, errCause := some .malformedBuffer }, rfl⟩
theorem test_witness_DecodedPayloadLength :
    (∃ f, mfuDecode tsx rec14 false false .rtc = .ok f)
      ∧ ∃ f, mfuDecode tsx (rec20.take 16) false true .rtc = .ok f := ⟨⟨_, rfl⟩, ⟨_, rfl⟩⟩
theorem test_witness_ExtractionTakesSixBytes :
    (∃ f, mfDecFr tsx (rec20.take 16) .rtc = .ok f) ∧ 16 ≤ (rec20.take 16).length := ⟨⟨_, rfl⟩, by decide⟩
theorem test_witness_FramedFrameRoundTrip : tsx.dec .ptp (tsx.enc .ptp ⟨1⟩).toList = some ⟨1⟩ := by decide
theorem test_witness_SyncGroupComesBackSwapped :
    tsx.dec .rtc (tsx.enc .rtc ⟨7⟩).toList = some ⟨7⟩ := by decide
theorem test_witness_ReencodedRecord :
    (∃ f, mfuDecode tsx rec14 false false .rtc = .ok f) ∧ ∃ f, mfuDecode tsx rec20 false true .ptp = .ok f :=
  ⟨⟨_, rfl⟩, ⟨_, rfl⟩⟩
/-- 10_state.md R27: bit 31 of the mode word takes part, the timestamp source does not. -/
theorem test_packet_equality :
    dpEq ⟨0x80000000#32, .rtc, []⟩ ⟨0#32, .rtc, []⟩ = false
      ∧ dpEq ⟨1#32, .rtc, [.tp [2#8]]⟩ ⟨1#32, .ptp, [.tp [2#8]]⟩ = true
      ∧ dpEq ⟨1#32, .rtc, [.tp [2#8]]⟩ ⟨1#32, .rtc, [.tp [3#8]]⟩ = false
      ∧ dpEq ⟨1#32, .rtc, [.tp []]⟩ ⟨1#32, .rtc, []⟩ = false := by decide
/-- One record, exactly fitting (vector V-SEG-3), and none (V-SEG-2). -/
theorem test_witness_RecordPositionsAndCount :
    (∃ mw fr off, dpDecode tsx ([0x00#8, 0x00#8, 0x00#8, 0x00#8] ++ rec14) false 4 true .rtc = .ok mw fr off
      ∧ mw.getLsbD 20 = false ∧ fr.length = 1)
      ∧ ∃ mw fr off, dpDecode tsx ([0x00#8, 0x00#8, 0x00#8, 0x00#8] ++ rec14.take 13) false 4 true .rtc
        = .ok mw fr off ∧ mw.getLsbD 20 = false ∧ fr.length = 0 :=
  ⟨⟨0#32, _, _, rfl, by decide, by decide⟩, ⟨0#32, _, _, rfl, by decide, by decide⟩⟩
/-- The bytes of an odd throughput packet, and a state whose input buffer they are. -/
theorem test_witness_ThroughputPacketRoundTrip :
    (∃ out, (0xC0100007#32 : U32).getLsbD 20 = true
      ∧ dpEncode tsx 0xC0100007#32 [.tp [0xde#8]] .rtc 5 = .ok out
      ∧ ∃ s : State, s.inputBuffer = out)
      ∧ ∃ mw fr off, dpDecode tsx [0x07#8, 0x00#8, 0x10#8, 0xc0#8, 0xde#8] true 0 false .rtc = .ok mw fr off
        ∧ mw.getLsbD 20 = true ∧ [0x07#8, 0x00#8, 0x10#8, 0xc0#8, 0xde#8].length ≤ 5 :=
  ⟨⟨[0x07#8, 0x00#8, 0x10#8, 0xc0#8, 0xde#8], by decide, by decide,
      holding [0x07#8, 0x00#8, 0x10#8, 0xc0#8, 0xde#8], by decide⟩,
    ⟨_, _, _, rfl, by decide, by decide⟩⟩
/-- Two frames of one payload byte: odd records, so both are padded. -/
theorem test_witness_FramedPacketRoundTrip :
    ∃ (fr : List MinorFrame) (out : Bytes), fr.length = 2 ∧ (0#32 : U32).getLsbD 20 = false
      ∧ (∀ f ∈ fr, ∃ t hdr pay, f = .fr (some t) hdr none pay ∧ pay.length = 1
        ∧ tsx.dec .rtc (tsx.enc .rtc t).toList = some t)
      ∧ dpEncode tsx 0#32 fr .rtc 4096 = .ok out
      ∧ ∃ s : State, s.inputBuffer = out ∧ s.latchS = .rtc ∧ s.latchX = false ∧ s.latchP = 1
        ∧ s.latchPV = true := by
  refine ⟨[.fr (some ⟨1⟩) 2#16 none [0x11#8], .fr (some ⟨3⟩) 4#16 none [0x22#8]],
    [0, 0, 0, 0, 1, 0, 0, 0, 0, 0, 0, 0, 2, 0, 0x11, 0, 3, 0, 0, 0, 0, 0, 0, 0, 4, 0, 0x22, 0], rfl, by decide,
    ?_, by decide, { holding [0, 0, 0, 0, 1, 0, 0, 0, 0, 0, 0, 0, 2, 0, 0x11, 0, 3, 0, 0, 0, 0, 0, 0, 0, 4, 0,
      0x22, 0] with latchP := 1, latchPV := true }, by decide, rfl, rfl, rfl, rfl⟩
  intro f hf
  simp only [List.mem_cons, List.not_mem_nil, or_false] at hf
  rcases hf with rfl | rfl
  · exact ⟨⟨1⟩, 2#16, [0x11#8], rfl, rfl, by decide⟩
  · exact ⟨⟨3⟩, 4#16, [0x22#8], rfl, rfl, by decide⟩

/-! Sound states for the statements over all steps. -/

/-- The start of a decode of a buffer that is too short. -/
theorem inv_atMode : (atMode 3).Inv := by
  refine ⟨⟨?_, ?_, ?_, ?_, ?_, ?_, ?_, ?_, ?_, ?_, BitVec.isLt _, ?_, ?_, ?_, ?_, ?_⟩, ⟨?_, ?_, ?_, ?_, ?_, ?_⟩,
    ⟨?_, ?_, ?_, ?_, ?_⟩, ⟨?_, ?_, ?_, ?_, ?_, ?_⟩, ⟨?_, ?_, ?_, ?_⟩, ⟨?_, ?_, ?_, ?_, ?_, ?_⟩⟩
  all_goals first
    | decide
    | (unfold Memory.within; decide)
    | (unfold State.decoding; decide)
    | (unfold State.encoding; decide)

/-- The start of a decode of a mode word. -/
theorem inv_atMode_four : (atMode 4).Inv := by
  refine ⟨⟨?_, ?_, ?_, ?_, ?_, ?_, ?_, ?_, ?_, ?_, BitVec.isLt _, ?_, ?_, ?_, ?_, ?_⟩, ⟨?_, ?_, ?_, ?_, ?_, ?_⟩,
    ⟨?_, ?_, ?_, ?_, ?_⟩, ⟨?_, ?_, ?_, ?_, ?_, ?_⟩, ⟨?_, ?_, ?_, ?_⟩, ⟨?_, ?_, ?_, ?_, ?_, ?_⟩⟩
  all_goals first
    | decide
    | (unfold Memory.within; decide)
    | (unfold State.decoding; decide)
    | (unfold State.encoding; decide)

/-- The start of the encode of a throughput packet. -/
theorem inv_atEncodeTp : (atEncodeTp .eHdr).Inv := by
  refine ⟨⟨?_, ?_, ?_, ?_, ?_, ?_, ?_, ?_, ?_, ?_, BitVec.isLt _, ?_, ?_, ?_, ?_, ?_⟩, ⟨?_, ?_, ?_, ?_, ?_, ?_⟩,
    ⟨?_, ?_, ?_, ?_, ?_⟩, ⟨?_, ?_, ?_, ?_, ?_, ?_⟩, ⟨?_, ?_, ?_, ?_⟩, ⟨?_, ?_, ?_, ?_, ?_, ?_⟩⟩
  all_goals first
    | decide
    | (unfold Memory.within; decide)
    | (unfold State.decoding; decide)
    | (unfold State.encoding; decide)

/-- An encoded packet, with a read of the output coming. -/
theorem inv_encodedEmpty : ({ encodedEmpty with host := [.rdOut 3] } : State).Inv := by
  refine ⟨⟨?_, ?_, ?_, ?_, ?_, ?_, ?_, ?_, ?_, ?_, BitVec.isLt _, ?_, ?_, ?_, ?_, ?_⟩, ⟨?_, ?_, ?_, ?_, ?_, ?_⟩,
    ⟨?_, ?_, ?_, ?_, ?_⟩, ⟨?_, ?_, ?_, ?_, ?_, ?_⟩, ⟨?_, ?_, ?_, ?_⟩, ⟨?_, ?_, ?_, ?_, ?_, ?_⟩⟩
  all_goals first
    | decide
    | (unfold Memory.within; decide)
    | (unfold State.decoding; decide)
    | (unfold State.encoding; decide)

/-- A fault was taken, and CMD.CLEAR is coming. -/
theorem inv_faulted : ({ faulted with host := [.write 3 1] } : State).Inv := by
  refine ⟨⟨?_, ?_, ?_, ?_, ?_, ?_, ?_, ?_, ?_, ?_, BitVec.isLt _, ?_, ?_, ?_, ?_, ?_⟩, ⟨?_, ?_, ?_, ?_, ?_, ?_⟩,
    ⟨?_, ?_, ?_, ?_, ?_⟩, ⟨?_, ?_, ?_, ?_, ?_, ?_⟩, ⟨?_, ?_, ?_, ?_⟩, ⟨?_, ?_, ?_, ?_, ?_, ?_⟩⟩
  all_goals first
    | decide
    | (unfold Memory.within; decide)
    | (unfold State.decoding; decide)
    | (unfold State.encoding; decide)

theorem test_witness_StepKeepsInvariant : ∃ s t : State, s.Inv ∧ step s = .next t :=
  ⟨atMode 3, _, inv_atMode, rfl⟩
theorem test_witness_OutputStaysEncodingOfPacket :
    ∃ s t : State, s.Inv ∧ s.OutputWritten ∧ s.OutputOk ∧ s.outValid = true ∧ step s = .next t :=
  ⟨{ encodedEmpty with host := [.rdOut 3] }, _, inv_encodedEmpty,
    fun _ => (by decide : ∀ k, k < 4 → (Memory.get encodedEmpty.obuf k).isSome = true),
    ⟨fun _ => rfl, fun h => (by cases h), fun h => (by cases h)⟩, rfl, rfl⟩
/-- The register of the largest number. -/
theorem test_witness_SoundStatesNeverStop :
    ∃ s : State, s.Inv ∧ (∀ op, s.host.head? = some op → op.namesRegister = true) ∧ s.host ≠ [] :=
  ⟨{ faulted with host := [.write 3 1] }, inv_faulted,
    fun op h => (by cases h; rfl), by decide⟩
theorem test_witness_namesRegister_boundary :
    (HostOp.read 21).namesRegister = true ∧ (HostOp.read 22).namesRegister = false := by decide
theorem test_witness_DecodeEndsAsBigStep :
    (∃ s : State, s.Inv ∧ s.phase = .dMode ∧ s.host = [] ∧ s.latchL = 3)
      ∧ ∃ s : State, s.Inv ∧ s.phase = .dMode ∧ s.host = [] ∧ s.latchL = 4 :=
  ⟨⟨atMode 3, inv_atMode, rfl, rfl, rfl⟩, ⟨atMode 4, inv_atMode_four, rfl, rfl, rfl⟩⟩
theorem test_witness_EncodeEndsAsBigStep : ∃ s : State, s.Inv ∧ s.phase = .eHdr ∧ s.host = [] :=
  ⟨atEncodeTp .eHdr, inv_atEncodeTp, rfl, rfl⟩
/-- A refused command and a reserved code leave a recorded fault. -/
theorem test_witness_FaultRecordIsSticky :
    ∃ s t : State, step s = .next t ∧ s.errKind ≠ none ∧ (∀ rest, s.host ≠ .reset :: rest)
      ∧ (∀ v rest, s.host = .write 3 v :: rest → v % 8 = 1 → s.status = .busy) :=
  ⟨{ faulted with host := [.write 3 2] }, _, rfl, by decide, fun _ h => (by cases h),
    fun v rest h hv => (by cases h; cases hv)⟩
theorem test_witness_FrameStoreIsAppendOnly : ∃ s t : State, s.Inv ∧ step s = .next t :=
  ⟨atEncodeTp .eHdr, _, inv_atEncodeTp, rfl⟩
/-- The entry by a decode fault and the exit by CMD.CLEAR. -/
theorem test_witness_FaultedEntryAndExit :
    (∃ s t : State, s.Inv ∧ step s = .next t ∧ t.status = .faulted ∧ s.status ≠ .faulted)
      ∧ ∃ s t : State, s.Inv ∧ step s = .next t ∧ s.status = .faulted ∧ t.status ≠ .faulted :=
  ⟨⟨atMode 3, _, inv_atMode, rfl, by decide, by decide⟩,
    ⟨{ faulted with host := [.write 3 1] }, _, inv_faulted, rfl, by decide, by decide⟩⟩
theorem test_witness_BuffersChangeOnlyByTheirWriters :
    ∃ s t : State, step s = .next t ∧ t.obuf ≠ s.obuf :=
  ⟨atEncodeTp .eHdr, _, rfl, by decide⟩
/-- A memory that differs from IBUF at offset 4, the first byte that is not valid. -/
theorem test_witness_DecodeReadsOnlyValidInput :
    ∃ (s : State) (m : Memory) (i : Instr) (t : State), s.Inv ∧ m ≠ s.ibuf
      ∧ (∀ a, a < s.latchL → ({ s with ibuf := m } : State).ibufByte a = s.ibufByte a)
      ∧ i ∈ [Instr.dpMode, .dpDecTp, .dpDecFr, .dpDecFrStep, .dpDecFrStop] ∧ exec i s = .next t := by
  refine ⟨atMode 4, [(4, 0xff#8)], .dpMode, _, inv_atMode_four, by decide, ?_, by decide, rfl⟩
  intro a ha
  have h4 : a < 4 := ha
  show (Memory.get [(4, 0xff#8)] a).getD _ = _
  rw [Memory.get, if_neg (by omega)]
  rfl

end Sys2Proof.Tests
end

section
/-! PROOF. Every step keeps the invariant `State.Inv` (O50). The proof goes along `Change` (Laws/Step.lean): one
lemma for each kind of change says that it gives a sound state, and what it does not name it takes over from the
state before. -/

namespace Sys2Proof.Machine

/-! What a phase rules out (10_state.md R46). -/

theorem not_decoding_of_idle {s : State} (h : s.phase = .idle) : ¬ s.decoding := by
  simp [State.decoding, h]

theorem not_encoding_of_idle {s : State} (h : s.phase = .idle) : ¬ s.encoding := by
  simp [State.encoding, h]

theorem not_encoding_of_decoding {s : State} (h : s.decoding) : ¬ s.encoding := by
  rcases h with h | h | h | h <;> simp [State.encoding, h]

theorem phase_ne_idle_of_decoding {s : State} (h : s.decoding) : s.phase ≠ .idle :=
  fun hi => not_decoding_of_idle hi h

theorem phase_ne_idle_of_encoding {s : State} (h : s.encoding) : s.phase ≠ .idle :=
  fun hi => not_encoding_of_idle hi h

/-- The decode clauses bind in the phases of a decode alone. -/
theorem decodeOk_of_not_decoding {s : State} (h : ¬ s.decoding) : s.DecodeOk where
  dMode hp := absurd (.inl hp) h
  dTp hp := absurd (.inr (.inl hp)) h
  dFre hp := absurd (.inr (.inr (.inl hp))) h
  dFr hp := absurd (.inr (.inr (.inr hp))) h

/-- The encode clauses bind in the phases of an encode, but for the output that no running command keeps. -/
theorem encodeOk_of_not_encoding {s : State} (h : ¬ s.encoding)
    (hv : s.phase ≠ .idle → s.outValid = false) : s.EncodeOk where
  not_valid := hv
  ret_empty he := absurd he h
  ret_ready he := absurd he h
  eHdr hp := absurd (.inl hp) h
  eTp hp := absurd (.inr (.inl hp)) h
  eFr hp := absurd (.inr (.inr hp)) h

theorem decodeOk_of_idle {s : State} (h : s.phase = .idle) : s.DecodeOk :=
  decodeOk_of_not_decoding (not_decoding_of_idle h)

theorem decodeOk_of_encoding {s : State} (h : s.encoding) : s.DecodeOk :=
  decodeOk_of_not_decoding fun hd => not_encoding_of_decoding hd h

theorem encodeOk_of_idle {s : State} (h : s.phase = .idle) : s.EncodeOk :=
  encodeOk_of_not_encoding (not_encoding_of_idle h) fun hn => absurd h hn

theorem encodeOk_of_decoding {s : State} (h : s.decoding) (hv : s.outValid = false) : s.EncodeOk :=
  encodeOk_of_not_encoding (not_encoding_of_decoding h) fun _ => hv

/-! What a sound state has (10_state.md R46, R48). -/

theorem State.Inv.idle {s : State} (hs : s.Inv) (h : s.status ≠ .busy) : s.phase = .idle :=
  hs.packet.idle_iff.2 h

theorem State.Inv.busy {s : State} (hs : s.Inv) (h : s.phase ≠ .idle) : s.status = .busy :=
  not_not.1 fun hb => h (hs.idle hb)

/-- A packet without frames that is not READY meets the clauses about frames. -/
theorem packetOk_of_no_frames {s : State} (hi : s.phase = .idle ↔ s.status ≠ .busy)
    (hf : s.frames = []) (hr : s.status ≠ .ready) : s.PacketOk where
  idle_iff := hi
  mode_eq f h := by simp [hf] at h
  empty_frames _ := hf
  faulted_frames _ := hf
  ready_single h := absurd h hr

/-- While a command runs, the packet clauses are the agreement of the modes. -/
theorem packetOk_of_busy {s : State} (hp : s.phase ≠ .idle) (hb : s.status = .busy)
    (hm : ∀ f ∈ s.frames, f.mode = s.mode) : s.PacketOk where
  idle_iff := by simp [hp, hb]
  mode_eq := hm
  empty_frames h := by simp [hb] at h
  faulted_frames h := by simp [hb] at h
  ready_single h := by simp [hb] at h

/-- Without a recorded fault, and outside FAULTED, the fault record is in order. -/
theorem errorsOk_of_none {s : State} (hk : s.errKind = none) (hc : s.errCause = none)
    (h0 : s.errOffset = 0 ∧ s.errLen = 0 ∧ s.errIndex = 0) (hf : s.status ≠ .faulted) : s.ErrorsOk where
  none_zero _ := ⟨hc, h0⟩
  cause_iff := by simp [hk, hc]
  cause_eq k h := by simp [hc] at h
  empty_none _ := hk
  faulted_some h := absurd h hf
  decoding_none _ := hk

/-! Changes of what only the widths and the buffers' form constrain. -/

/-- The part of the state that the packet, error, decode and encode clauses read: the registers the host writes
freely, the buffers and the model's own fields are erased. -/
def State.sequencerPart (s : State) : State :=
  { s with
    ctrl := 0#32, fps := 0, fpsSet := false, bufLen := 0, refCode := none
    aFlags := 0#3, aTs := ⟨0⟩, aHdr := 0#16, aSync := 0#32, aSfid := 0#16, aPlen := 0
    ibuf := [], obuf := [], apay := [], resets := 0, host := [], answer := .none }

theorem inv_iff_sequencerPart (s : State) :
    s.Inv ↔ s.Bounded ∧ s.MemoryOk ∧ s.sequencerPart.PacketOk ∧ s.sequencerPart.ErrorsOk
      ∧ s.sequencerPart.DecodeOk ∧ s.sequencerPart.EncodeOk := by
  constructor
  · rintro ⟨hb, hm, hp, he, hd, hn⟩
    exact ⟨hb, hm, { hp with }, { he with }, { hd with }, { hn with }⟩
  · rintro ⟨hb, hm, hp, he, hd, hn⟩
    exact ⟨hb, hm, { hp with }, { he with }, { hd with }, { hn with }⟩

/-- A change outside the sequencer's part keeps the invariant if the widths and the buffers stay in order. -/
theorem inv_of_sequencerPart_eq {s t : State} (hs : s.Inv) (h : t.sequencerPart = s.sequencerPart)
    (hb : t.Bounded) (hm : t.MemoryOk) : t.Inv := by
  obtain ⟨-, -, hrest⟩ := (inv_iff_sequencerPart s).1 hs
  exact (inv_iff_sequencerPart t).2 ⟨hb, hm, h ▸ hrest⟩

theorem inv_host {s : State} (hs : s.Inv) (ops : List HostOp) : ({ s with host := ops } : State).Inv :=
  inv_of_sequencerPart_eq hs rfl { hs.bounded with } { hs.memory with }

theorem inv_showAnswer {s : State} (hs : s.Inv) (a : Answer) : (s.showAnswer a).Inv :=
  inv_of_sequencerPart_eq hs rfl { hs.bounded with } { hs.memory with }

theorem inv_refuse {s : State} (hs : s.Inv) (c : RefCode) : (s.refuse c).Inv :=
  inv_of_sequencerPart_eq hs rfl { hs.bounded with } { hs.memory with }

theorem inv_writeIbuf {s : State} (hs : s.Inv) {a : Nat} (b : Byte) (ha : a < s.params.bufCap) :
    ({ s with ibuf := Memory.set s.ibuf a b } : State).Inv :=
  inv_of_sequencerPart_eq hs rfl { hs.bounded with }
    { hs.memory with
      ibuf_wf := Memory.set_wf _ _ _ hs.memory.ibuf_wf
      ibuf_within := Memory.set_within _ _ _ _ ha hs.memory.ibuf_within }

theorem inv_writeApay {s : State} (hs : s.Inv) {a : Nat} (b : Byte) (ha : a < s.params.payCap) :
    ({ s with apay := Memory.set s.apay a b } : State).Inv :=
  inv_of_sequencerPart_eq hs rfl { hs.bounded with }
    { hs.memory with
      apay_wf := Memory.set_wf _ _ _ hs.memory.apay_wf
      apay_within := Memory.set_within _ _ _ _ ha hs.memory.apay_within }

/-- Bytes written to OBUF inside OUT_CAP keep the buffers in order (20_memory.md R70). -/
theorem memoryOk_memWrite {s : State} (hs : s.MemoryOk) {a : Nat} {v : Bytes}
    (h : a + v.length ≤ s.params.outCap) : (s.memWrite a v).MemoryOk :=
  { hs with
    obuf_wf := Memory.setBytes_wf _ _ _ hs.obuf_wf
    obuf_within := Memory.setBytes_within _ _ _ _ h hs.obuf_within }

/-! Register writes (10_state.md R28 to R42, 44_host_commands.md R208). -/

/-- CTRL stores none of its reserved bits (10_state.md R29). -/
theorem ctrlStored_reserved (v : Nat) : ctrlStored v &&& 0xFFFFFFFC#32 = 0#32 := by
  rw [ctrlStored, BitVec.and_assoc]
  simp

theorem truncOff_fits (s : State) (v : Nat) : s.truncOff v < 2 ^ s.params.offW :=
  Nat.mod_lt _ (Nat.two_pow_pos _)

theorem inv_writeBufLen {s : State} (hs : s.Inv) (v : Nat) : (s.writeBufLen v).Inv := by
  unfold State.writeBufLen
  split
  · next hv => exact inv_of_sequencerPart_eq hs rfl { hs.bounded with bufLen_le := hv } { hs.memory with }
  · exact inv_refuse hs _

theorem inv_writeAPlen {s : State} (hs : s.Inv) (v : Nat) : (s.writeAPlen v).Inv := by
  unfold State.writeAPlen
  split
  · next hv => exact inv_of_sequencerPart_eq hs rfl { hs.bounded with aPlen_le := hv } { hs.memory with }
  · exact inv_refuse hs _

/-- MODE_WORD is stored in EMPTY alone, where no frame has a mode to disagree with it (10_state.md R37). -/
theorem inv_writeModeWord {s : State} (hs : s.Inv) (v : Nat) : (s.writeModeWord v).Inv := by
  unfold State.writeModeWord
  split
  · next h =>
    have hi : s.phase = .idle := hs.idle (by simp [h])
    exact {
      bounded := { hs.bounded with outLen_le := Nat.zero_le _ }
      memory := { hs.memory with }
      packet := packetOk_of_no_frames hs.packet.idle_iff (hs.packet.empty_frames h) (by simp [h])
      errors := { hs.errors with }
      decode := decodeOk_of_idle hi
      encode := encodeOk_of_idle hi }
  all_goals exact inv_refuse hs _

theorem inv_writeRegIdle {s : State} (hs : s.Inv) (r : Reg) (v : Nat) : (s.writeRegIdle r v).Inv := by
  cases r with
  | ctrl =>
    exact inv_of_sequencerPart_eq hs rfl { hs.bounded with ctrl_reserved := ctrlStored_reserved v }
      { hs.memory with }
  | fps =>
    exact inv_of_sequencerPart_eq hs rfl { hs.bounded with fps_fits := truncOff_fits s v } { hs.memory with }
  | bufLen => exact inv_writeBufLen hs _
  | modeWord => exact inv_writeModeWord hs v
  | aTs =>
    exact inv_of_sequencerPart_eq hs rfl { hs.bounded with aTs_fits := truncTs_fits s v } { hs.memory with }
  | aPlen => exact inv_writeAPlen hs _
  | aFlags | aHdr | aSync | aSfid => exact inv_of_sequencerPart_eq hs rfl { hs.bounded with } { hs.memory with }
  | _ => exact hs

/-! Reset and the commands. -/

/-- The reset state is sound (10_state.md R49). -/
theorem inv_resetWith (p : Params) (n : Nat) : (State.resetWith p n).Inv where
  bounded := by
    constructor <;> simp [State.frameCount, BitVec.isLt]
  memory := by
    constructor <;> simp [Memory.wf, Memory.within]
  packet := packetOk_of_no_frames (by simp) rfl (by simp)
  errors := errorsOk_of_none rfl rfl ⟨rfl, rfl, rfl⟩ (by simp)
  decode := decodeOk_of_idle rfl
  encode := encodeOk_of_idle rfl

theorem inv_clear {s : State} (hs : s.Inv) (h : s.status ≠ .busy) : s.clear.Inv where
  bounded := { hs.bounded with
    offset_le := Nat.zero_le _
    count_le := Nat.zero_le _
    payload_le := by simp
    outLen_le := Nat.zero_le _
    frameTs_fits := by simp
    errOffset_le := Nat.zero_le _
    errLen_le := Nat.zero_le _
    errIndex_le := Nat.zero_le _ }
  memory := { hs.memory with }
  packet := packetOk_of_no_frames (by simp [hs.idle h]) rfl (by simp)
  errors := errorsOk_of_none rfl rfl ⟨rfl, rfl, rfl⟩ (by simp)
  decode := decodeOk_of_idle (hs.idle h)
  encode := encodeOk_of_idle (hs.idle h)

/-- A decode starts from an EMPTY packet, which has neither frames nor a recorded fault. -/
theorem inv_startDecode {s : State} (hs : s.Inv) (h : s.status = .empty) : s.startDecode.Inv where
  bounded := { hs.bounded with
    latchP_fits := hs.bounded.fps_fits
    latchL_le := hs.bounded.bufLen_le
    offset_le := Nat.zero_le _
    outLen_le := Nat.zero_le _ }
  memory := { hs.memory with }
  packet := packetOk_of_no_frames (by simp) (hs.packet.empty_frames h) (by simp)
  errors := { hs.errors with
    empty_none := fun _ => hs.errors.empty_none h
    faulted_some := by simp
    decoding_none := fun _ => hs.errors.empty_none h }
  decode := {
    dMode := fun _ => ⟨rfl, hs.packet.empty_frames h⟩
    dTp := by simp
    dFre := by simp
    dFr := by simp }
  encode := encodeOk_of_decoding (.inl rfl) rfl

/-- RET is EMPTY only after an encode that EMPTY accepted. -/
theorem toRet_eq_empty {st : Status} : st.toRet = .empty ↔ st = .empty := by
  cases st <;> simp [Status.toRet]

theorem inv_startEncode {s : State} (hs : s.Inv)
    (h : s.status = .ready ∨ s.status = .empty ∧ s.tp = false) : s.startEncode.Inv where
  bounded := { hs.bounded with
    outLen_le := Nat.zero_le _
    eidx_le := Nat.zero_le _ }
  memory := { hs.memory with }
  packet := packetOk_of_busy (by simp) rfl hs.packet.mode_eq
  errors := { hs.errors with
    empty_none := by simp
    faulted_some := by simp
    decoding_none := by simp [State.decoding] }
  decode := decodeOk_of_encoding (.inl rfl)
  encode := {
    not_valid := fun _ => rfl
    ret_empty := fun _ hr => by
      have he : s.status = .empty := toRet_eq_empty.1 hr
      have htp : s.tp = false := by simpa [he] using h
      exact ⟨hs.packet.empty_frames he, htp, hs.errors.empty_none he⟩
    ret_ready := fun _ htp => by
      have htp' : s.tp = true := htp
      have hr : s.status = .ready := by simpa [htp'] using h
      exact hs.packet.ready_single hr htp
    eHdr := fun _ => ⟨rfl, rfl⟩
    eTp := by simp
    eFr := by simp }

/-! CMD.APPEND (44_host_commands.md R200, R202). -/

theorem appendRefusal_eq_none {s : State} : s.appendRefusal = none ↔
    s.aTp = s.tp ∧ (s.tp = true → s.frameCount = 0) ∧ s.frameCount < s.params.frmCap := by
  unfold State.appendRefusal
  by_cases hmode : s.aTp = s.tp
  · by_cases hfull : s.tp = true ∧ 1 ≤ s.frameCount
    · simp [hmode, hfull, Nat.one_le_iff_ne_zero.1 hfull.2]
    · have hsingle : s.tp = true → s.frameCount = 0 := fun htp =>
        Nat.lt_one_iff.1 (Nat.not_le.1 fun hle => hfull ⟨htp, hle⟩)
      by_cases hcount : s.frameCount < s.params.frmCap
      · simpa [hmode, hfull, hcount] using hsingle
      · simp [hmode, hfull, hcount]
  · simp [hmode]

theorem stagedFrame_mode (s : State) (pay : Bytes) :
    (s.stagedFrame pay).mode = if s.aTp then .tp else .fr := by
  unfold State.stagedFrame
  split <;> rfl

theorem stagedFrame_payload (s : State) (pay : Bytes) : (s.stagedFrame pay).payload = pay := by
  unfold State.stagedFrame
  split <;> rfl

theorem stagedFrame_ts_fits {s : State} (h : s.aTs.code < 2 ^ s.params.tsW) (pay : Bytes) :
    s.params.fitsTs (s.stagedFrame pay).ts = true := by
  unfold State.stagedFrame
  split
  · rfl
  · cases s.aTsPresent <;> simp [MinorFrame.ts, Params.fitsTs, h]

/-- A frame appended below FRM_CAP, no longer than PAY_CAP and with a timestamp of TS_W bits, keeps the
widths (10_state.md R43). -/
theorem bounded_pushFrame {s : State} (hs : s.Bounded) {f : MinorFrame}
    (hc : s.frameCount < s.params.frmCap) (hp : f.plen ≤ s.params.payCap)
    (ht : s.params.fitsTs f.ts = true) : (s.pushFrame f).Bounded :=
  { hs with
    count_le := by simpa [State.frameCount] using hc
    payload_le := by simpa [or_imp, forall_and, hp] using hs.payload_le
    frameTs_fits := by simpa [or_imp, forall_and, ht] using hs.frameTs_fits }

/-- A frame of the packet's mode keeps the agreement of the modes (10_state.md R25). -/
theorem mode_eq_pushFrame {s : State} (hs : s.PacketOk) {f : MinorFrame} (hf : f.mode = s.mode) :
    ∀ g ∈ (s.pushFrame f).frames, g.mode = s.mode := by
  simpa [or_imp, forall_and, hf] using hs.mode_eq

theorem inv_append {s : State} (hs : s.Inv) {pay : Bytes} (h : s.status = .empty ∨ s.status = .ready)
    (hr : s.appendRefusal = none) (hp : s.stagedPayload = some pay) :
    ({ s.pushFrame (s.stagedFrame pay) with outValid := false, outLen := 0, status := .ready } : State).Inv := by
  obtain ⟨hmode, hsingle, hcount⟩ := appendRefusal_eq_none.1 hr
  obtain ⟨hlen, rfl⟩ := stagedPayload_eq_some.1 hp
  have hi : s.phase = .idle := hs.idle (by rcases h with h | h <;> simp [h])
  have hb := bounded_pushFrame hs.bounded (f := s.stagedFrame _) hcount
    (by simpa [MinorFrame.plen, stagedFrame_payload] using hlen)
    (stagedFrame_ts_fits hs.bounded.aTs_fits ((List.range' 0 s.aPlen).map s.apayByte))
  exact {
    bounded := { hb with outLen_le := Nat.zero_le _ }
    memory := { hs.memory with }
    packet := {
      idle_iff := by simp [hi]
      mode_eq := mode_eq_pushFrame hs.packet (by rw [stagedFrame_mode, hmode]; rfl)
      empty_frames := by simp
      faulted_frames := by simp
      ready_single := fun _ htp => by simpa [State.frameCount] using hsingle htp }
    errors := { hs.errors with
      empty_none := by simp
      faulted_some := by simp
      decoding_none := fun hd => absurd hd (not_decoding_of_idle hi) }
    decode := decodeOk_of_idle hi
    encode := encodeOk_of_idle hi }

/-! Taking a fault (60_exceptions.md R224 to R226). -/

/-- What an error register holds after a fault is bounded when the new and the old value are. -/
theorem onFirstFault_le {s : State} {new old n : Nat} (hn : new ≤ n) (ho : old ≤ n) :
    s.onFirstFault new old ≤ n := by
  unfold State.onFirstFault
  split
  · exact hn
  · exact ho

/-! The decode steps (42_data_packet_decode.md R161 to R167). -/

/-- A decode fault with a cause exactly where it is wrapped gives a sound FAULTED state (60_exceptions.md
R224). -/
theorem inv_takeDecodeFault {s : State} (hs : s.Inv) (hd : s.decoding) {k : ErrKind} {c : Option ErrKind}
    (hc : c ≠ none ↔ k = .offsetDecodeError) (hm : ∀ e, c = some e → e = .malformedBuffer) :
    (s.takeDecodeFault k c).Inv := by
  have hn : s.errKind = none := hs.errors.decoding_none hd
  exact {
    bounded := { hs.bounded with
      count_le := Nat.zero_le _
      payload_le := by simp
      outLen_le := Nat.zero_le _
      frameTs_fits := by simp
      errOffset_le := onFirstFault_le
        (Nat.le_trans hs.bounded.offset_le (Nat.succ_le_succ hs.bounded.latchL_le)) hs.bounded.errOffset_le
      errLen_le := onFirstFault_le hs.bounded.latchL_le hs.bounded.errLen_le
      errIndex_le := onFirstFault_le (Nat.zero_le _) hs.bounded.errIndex_le }
    memory := { hs.memory with }
    packet := packetOk_of_no_frames (by simp) rfl (by simp)
    errors := {
      none_zero := by simp [onFirstFault_of_none hn]
      cause_iff := by simpa [onFirstFault_of_none hn] using hc
      cause_eq := by simpa [onFirstFault_of_none hn] using hm
      empty_none := by simp
      faulted_some := by simp [onFirstFault_of_none hn]
      decoding_none := fun h => absurd h (not_decoding_of_idle rfl) }
    decode := decodeOk_of_idle rfl
    encode := encodeOk_of_idle rfl }

/-- A decode without frames moves on to another of its phases, with a new mode word and cursor: what is left to
show is the cursor's bound and what holds in the new phase. -/
theorem inv_decodeEntry {s : State} (hs : s.Inv) (hd : s.decoding) (hf : s.frames = []) {w : U32} {o : Nat}
    {ph : Phase} (ho : o ≤ s.latchL + 1)
    (hd' : ({ s with modeWord := w, offset := o, phase := ph } : State).decoding)
    (hok : ({ s with modeWord := w, offset := o, phase := ph } : State).DecodeOk) :
    ({ s with modeWord := w, offset := o, phase := ph } : State).Inv where
  bounded := { hs.bounded with offset_le := ho }
  memory := { hs.memory with }
  packet := by
    have hb : s.status = .busy := hs.busy (phase_ne_idle_of_decoding hd)
    exact packetOk_of_no_frames (by simpa [hb] using phase_ne_idle_of_decoding hd') hf (by simp [hb])
  errors := { hs.errors with decoding_none := fun _ => hs.errors.decoding_none hd }
  decode := hok
  encode := encodeOk_of_decoding hd' (hs.encode.not_valid (phase_ne_idle_of_decoding hd))

theorem decodeRoute_eq_dTp {w : U32} : decodeRoute w = .dTp ↔ modeWordTp w = true := by
  unfold decodeRoute
  cases modeWordTp w <;> simp

theorem decodeRoute_eq_dFre {w : U32} : decodeRoute w = .dFre ↔ modeWordTp w = false := by
  unfold decodeRoute
  cases modeWordTp w <;> simp

theorem decodeRoute_eq_or (w : U32) : decodeRoute w = .dTp ∨ decodeRoute w = .dFre := by
  rw [decodeRoute_eq_dTp, decodeRoute_eq_dFre]
  exact Bool.eq_false_or_eq_true _

theorem inv_mode {s : State} (hs : s.Inv) (h : s.phase = .dMode) (hl : 4 ≤ s.latchL) (w : U32) :
    ({ s with modeWord := w, offset := 4, phase := decodeRoute w } : State).Inv := by
  have hf : s.frames = [] := (hs.decode.dMode h).2
  have hroute := decodeRoute_eq_or w
  refine inv_decodeEntry hs (.inl h) hf (by omega) (.inr (hroute.imp_right .inl)) ?_
  exact {
    dMode := fun hp => by simp [show decodeRoute w = .dMode from hp] at hroute
    dTp := fun hp => ⟨decodeRoute_eq_dTp.1 hp, hl, rfl, hf⟩
    dFre := fun hp => ⟨decodeRoute_eq_dFre.1 hp, hl, rfl, hf⟩
    dFr := fun hp => by simp [show decodeRoute w = .dFr from hp] at hroute }

theorem inv_enterFr {s : State} (hs : s.Inv) (h : s.phase = .dFre) (hp : s.latchPV = true) :
    ({ s with phase := .dFr } : State).Inv := by
  obtain ⟨htp, hl, ho, hf⟩ := hs.decode.dFre h
  refine inv_decodeEntry hs (.inr (.inr (.inl h))) hf hs.bounded.offset_le (.inr (.inr (.inr rfl))) ?_
  exact {
    dMode := by simp
    dTp := by simp
    dFre := by simp
    dFr := fun _ => ⟨htp, hl, hp, by simp [State.frameCount, hf, ho]⟩ }

/-- The end of a decode (42_data_packet_decode.md R162, R166): READY, with one frame if it is a throughput
packet. -/
theorem inv_endDecode {s : State} (hb : s.Bounded) (hm : s.MemoryOk)
    (hmode : ∀ f ∈ s.frames, f.mode = s.mode) (hsingle : s.tp = true → s.frameCount = 1)
    (he : s.ErrorsOk) : s.endDecode.Inv where
  bounded := { hb with }
  memory := { hm with }
  packet := {
    idle_iff := by simp
    mode_eq := hmode
    empty_frames := by simp
    faulted_frames := by simp
    ready_single := fun _ => hsingle }
  errors := { he with
    empty_none := by simp
    faulted_some := by simp
    decoding_none := fun h => absurd h (not_decoding_of_idle rfl) }
  decode := decodeOk_of_idle rfl
  encode := encodeOk_of_idle rfl

theorem inv_bodyTp {s : State} (hs : s.Inv) (h : s.phase = .dTp) :
    ({ s with frames := [.tp (s.ibufSlice 4 (s.latchL - 4))], offset := s.latchL } : State).endDecode.Inv := by
  obtain ⟨htp, -, -, -⟩ := hs.decode.dTp h
  refine inv_endDecode ?_ { hs.memory with } ?_ (fun _ => rfl) { hs.errors with }
  · exact { hs.bounded with
      offset_le := Nat.le_succ _
      count_le := s.params.frmCap_pos
      payload_le := by
        have := hs.bounded.latchL_le
        have := s.params.payCap_ge
        simp only [List.mem_singleton, forall_eq, MinorFrame.plen, MinorFrame.payload, length_ibufSlice]
        omega
      frameTs_fits := by simp [MinorFrame.ts, Params.fitsTs] }
  · have hmode : s.mode = .tp := by simp [State.mode, htp]
    simp only [List.mem_singleton, forall_eq]
    exact hmode.symm

/-- What a framed minor-frame decode gives is a framed frame whose payload is the record without its header
(40_minor_frame_decode.md R127 to R129). -/
theorem mfuDecode_ok_shape {c : Codec} {region : Bytes} {x : Bool} {src : TsSrc} {f : MinorFrame}
    (h : mfuDecode c region false x src = .ok f) : f.mode = .fr ∧ f.plen + 10 ≤ region.length := by
  obtain ⟨hl, t, -, rfl⟩ := mfuDecode_ok h
  refine ⟨rfl, ?_⟩
  have : 10 ≤ headerBytes x := by cases x <;> simp [headerBytes]
  simp only [MinorFrame.plen, MinorFrame.payload, List.length_drop]
  omega

/-- While a record fits, the frame store has room for its frame: the cursor has passed a stride of at least ten
bytes for each frame, and R9 has `FRM_CAP >= (BUF_CAP - 4) / 10`. -/
theorem frameCount_lt_of_fits {s : State} (hs : s.Inv) (h : s.phase = .dFr)
    (hf : s.offset + s.rs ≤ s.latchL) : s.frameCount < s.params.frmCap := by
  obtain ⟨-, -, -, ho⟩ := hs.decode.dFr h
  have hstride : s.frameCount * 10 ≤ s.frameCount * s.stride := Nat.mul_le_mul_left _ (stride_ge s)
  have hrs : 10 ≤ s.rs := Nat.le_add_left _ _
  have := hs.bounded.latchL_le
  have := s.params.frmCap_ge
  omega

theorem stride_le (s : State) : s.stride ≤ s.rs + 1 := by
  unfold State.stride padded
  omega

theorem inv_record {s : State} (hs : s.Inv) {f : MinorFrame} (h : s.phase = .dFr)
    (hf : s.offset + s.rs ≤ s.latchL)
    (hd : mfuDecode s.codec (s.ibufSlice s.offset s.rs) false s.latchX s.latchS = .ok f) :
    ({ s.pushFrame f with offset := s.offset + s.stride } : State).Inv := by
  obtain ⟨htp, hl, hpv, ho⟩ := hs.decode.dFr h
  obtain ⟨hfr, hlen⟩ := mfuDecode_ok_shape hd
  have hdec : s.decoding := .inr (.inr (.inr h))
  have hbusy : s.status = .busy := hs.busy (phase_ne_idle_of_decoding hdec)
  have hplen : f.plen ≤ s.params.payCap := by
    have := hs.bounded.latchL_le
    have := s.params.payCap_ge
    rw [length_ibufSlice] at hlen
    omega
  have hb := bounded_pushFrame hs.bounded (frameCount_lt_of_fits hs h hf) hplen (mfuDecode_ts_fits hd)
  exact {
    bounded := { hb with
      offset_le := by
        have := stride_le s
        show s.offset + s.stride ≤ s.latchL + 1
        omega }
    memory := { hs.memory with }
    packet := packetOk_of_busy (phase_ne_idle_of_decoding hdec) hbusy
      (mode_eq_pushFrame hs.packet (by simp [hfr, State.mode, htp]))
    errors := { hs.errors with }
    decode := {
      dMode := by simp [h]
      dTp := by simp [h]
      dFre := by simp [h]
      dFr := fun _ => ⟨htp, hl, hpv, by
        have hc : (s.frames ++ [f]).length = s.frameCount + 1 := List.length_append
        show s.offset + s.stride = 4 + (s.frames ++ [f]).length * s.stride
        rw [hc, ho, Nat.add_one_mul, Nat.add_assoc]⟩ }
    encode := encodeOk_of_decoding hdec (hs.encode.not_valid (phase_ne_idle_of_decoding hdec)) }

theorem inv_recordStop {s : State} (hs : s.Inv) (h : s.phase = .dFr) : s.endDecode.Inv := by
  obtain ⟨htp, -, -, -⟩ := hs.decode.dFr h
  exact inv_endDecode hs.bounded hs.memory hs.packet.mode_eq (by simp [htp]) hs.errors

/-! The encode steps (43_data_packet_encode.md R182 to R186). -/

theorem ret_status_ne_busy (r : Ret) : r.status ≠ .busy := by cases r <;> simp [Ret.status]

theorem ret_status_ne_faulted (r : Ret) : r.status ≠ .faulted := by cases r <;> simp [Ret.status]

theorem ret_status_eq_empty {r : Ret} : r.status = .empty ↔ r = .empty := by
  cases r <;> simp [Ret.status]

/-- The packet clauses at the end of an encode, with or without a fault: STATE is RET and PHASE is IDLE. -/
theorem packetOk_endEncode {s : State} (hs : s.Inv) (he : s.encoding) : s.endEncode.PacketOk where
  idle_iff := by simp [ret_status_ne_busy]
  mode_eq := hs.packet.mode_eq
  empty_frames h := (hs.encode.ret_empty he (ret_status_eq_empty.1 h)).1
  faulted_frames h := absurd h (ret_status_ne_faulted _)
  ready_single _ htp := hs.encode.ret_ready he htp

theorem errorsOk_endEncode {s : State} (hs : s.Inv) (he : s.encoding) : s.endEncode.ErrorsOk :=
  { hs.errors with
    empty_none := fun h => (hs.encode.ret_empty he (ret_status_eq_empty.1 h)).2.2
    faulted_some := fun h => absurd h (ret_status_ne_faulted _)
    decoding_none := fun h => absurd h (not_decoding_of_idle rfl) }

theorem inv_encStop {s : State} (hs : s.Inv) (h : s.phase = .eFr) : s.endEncode.Inv where
  bounded := { hs.bounded with }
  memory := { hs.memory with }
  packet := packetOk_endEncode hs (.inr (.inr h))
  errors := errorsOk_endEncode hs (.inr (.inr h))
  decode := decodeOk_of_idle rfl
  encode := encodeOk_of_idle rfl

/-- An encode fault, which a frame raises, gives a sound state: RET is then READY, and the record is the first
fault's (60_exceptions.md R225, R226). -/
theorem inv_takeEncodeFault {s : State} (hs : s.Inv) (he : s.encoding) (hf : s.frames ≠ []) {k : ErrKind}
    {i : Nat} (hk : k ≠ .offsetDecodeError) (hi : i ≤ s.params.frmCap) : (s.takeEncodeFault k i).Inv := by
  have hret : s.ret ≠ .empty := fun hr => hf (hs.encode.ret_empty he hr).1
  have herrors : (s.takeEncodeFault k i).ErrorsOk := by
    refine {
      none_zero := ?_
      cause_iff := ?_
      cause_eq := ?_
      empty_none := fun h => absurd (ret_status_eq_empty.1 h) hret
      faulted_some := fun h => absurd h (ret_status_ne_faulted _)
      decoding_none := fun h => absurd h (not_decoding_of_idle rfl) }
    · cases hn : s.errKind <;> simp [State.onFirstFault, hn]
    · cases hn : s.errKind
      · simp [State.onFirstFault, hn, hk]
      · simpa [State.onFirstFault, hn] using hs.errors.cause_iff
    · cases hn : s.errKind
      · simp [State.onFirstFault, hn]
      · simpa [State.onFirstFault, hn] using hs.errors.cause_eq
  exact {
    bounded := { hs.bounded with
      outLen_le := Nat.zero_le _
      errOffset_le := onFirstFault_le (Nat.zero_le _) hs.bounded.errOffset_le
      errLen_le := onFirstFault_le (Nat.zero_le _) hs.bounded.errLen_le
      errIndex_le := onFirstFault_le hi hs.bounded.errIndex_le }
    memory := { hs.memory with }
    packet := { packetOk_endEncode hs he with }
    errors := herrors
    decode := decodeOk_of_idle rfl
    encode := encodeOk_of_idle rfl }

theorem encodeRoute_eq_eTp {w : U32} : encodeRoute w = .eTp ↔ modeWordTp w = true := by
  unfold encodeRoute
  cases modeWordTp w <;> simp

theorem encodeRoute_eq_eFr {w : U32} : encodeRoute w = .eFr ↔ modeWordTp w = false := by
  unfold encodeRoute
  cases modeWordTp w <;> simp

theorem encodeRoute_eq_or (w : U32) : encodeRoute w = .eTp ∨ encodeRoute w = .eFr := by
  rw [encodeRoute_eq_eTp, encodeRoute_eq_eFr]
  exact Bool.eq_false_or_eq_true _

/-- OUT_CAP holds the mode word (00_scope.md R9), and the header step routes by its bit 20 (R182). -/
theorem inv_encHdr {s : State} (hs : s.Inv) (h : s.phase = .eHdr) :
    ({ s.memWrite 0 (le32Enc s.modeWord) with
      outLen := 4, phase := encodeRoute s.modeWord } : State).Inv := by
  have he : s.encoding := .inl h
  obtain ⟨-, heidx⟩ := hs.encode.eHdr h
  have hroute := encodeRoute_eq_or s.modeWord
  have he' : ({ s.memWrite 0 (le32Enc s.modeWord) with
      outLen := 4, phase := encodeRoute s.modeWord } : State).encoding := .inr hroute
  exact {
    bounded := { hs.bounded with outLen_le := s.params.outCap_ge }
    memory := { memoryOk_memWrite hs.memory (v := le32Enc s.modeWord) (by simpa using s.params.outCap_ge) with }
    packet := packetOk_of_busy (phase_ne_idle_of_encoding he') (hs.busy (by simp [h])) hs.packet.mode_eq
    errors := { hs.errors with decoding_none := fun hd => absurd he' (not_encoding_of_decoding hd) }
    decode := decodeOk_of_encoding he'
    encode := {
      not_valid := fun _ => hs.encode.not_valid (by simp [h])
      ret_empty := fun _ => hs.encode.ret_empty he
      ret_ready := fun _ => hs.encode.ret_ready he
      eHdr := fun hp => by simp [show encodeRoute s.modeWord = .eHdr from hp] at hroute
      eTp := fun hp => ⟨encodeRoute_eq_eTp.1 hp, rfl⟩
      eFr := fun hp => ⟨encodeRoute_eq_eFr.1 hp, heidx.le.trans (Nat.zero_le _), le_rfl, by simp⟩ } }

theorem inv_encTp {s : State} (hs : s.Inv) {pay : Bytes} (h : s.phase = .eTp)
    (hc : 4 + pay.length ≤ s.params.outCap) :
    ({ s.memWrite 4 pay with outLen := 4 + pay.length } : State).endEncode.Inv where
  bounded := { hs.bounded with outLen_le := hc }
  memory := { memoryOk_memWrite hs.memory hc with }
  packet := { packetOk_endEncode hs (.inr (.inl h)) with }
  errors := { errorsOk_endEncode hs (.inr (.inl h)) with }
  decode := decodeOk_of_idle rfl
  encode := encodeOk_of_idle rfl

/-- A frame step goes on at the next frame and at an even output length (43_data_packet_encode.md R184). -/
theorem inv_encFrame {s : State} (hs : s.Inv) {b : Bytes} (h : s.phase = .eFr)
    (hlt : s.eidx < s.frameCount) (hc : s.outLen + b.length + b.length % 2 ≤ s.params.outCap) :
    ({ s.memWrite s.outLen (b ++ padBytes b.length) with
      outLen := s.outLen + b.length + b.length % 2, eidx := s.eidx + 1 } : State).Inv := by
  have he : s.encoding := .inr (.inr h)
  obtain ⟨htp, -, hout, heven⟩ := hs.encode.eFr h
  exact {
    bounded := { hs.bounded with
      outLen_le := hc
      eidx_le := Nat.le_trans hlt hs.bounded.count_le }
    memory := { memoryOk_memWrite hs.memory (a := s.outLen) (v := b ++ padBytes b.length)
      (by simpa [length_padBytes, Nat.add_assoc] using hc) with }
    packet := { hs.packet with }
    errors := { hs.errors with }
    decode := decodeOk_of_encoding (.inr (.inr h))
    encode := {
      not_valid := hs.encode.not_valid
      ret_empty := fun _ => hs.encode.ret_empty he
      ret_ready := fun _ => hs.encode.ret_ready he
      eHdr := by simp [h]
      eTp := by simp [h]
      eFr := fun _ => ⟨htp, hlt, by simp only; omega, by simp only; omega⟩ } }

/-! Every step. -/

/-- Every change that a step can make gives a sound state. -/
theorem inv_of_change {op : Option HostOp} {s t : State} (hs : s.Inv) (h : Change op s t) : t.Inv := by
  cases h with
  | same => exact hs
  | answer a => exact inv_showAnswer hs a
  | refuse c => exact inv_refuse hs c
  | clear v hop hv h => exact inv_clear hs h
  | startDecode h => exact inv_startDecode hs h
  | startEncode h => exact inv_startEncode hs h
  | append pay h hr hp => exact inv_append hs h hr hp
  | modeShort h hl => exact inv_takeDecodeFault hs (.inl h) (by simp) (by simp)
  | mode h hl hc => exact inv_mode hs h hl _
  | bodyTp h hc => exact inv_bodyTp hs h
  | enterFr h hp => exact inv_enterFr hs h hp
  | noFps h hp => exact inv_takeDecodeFault hs (.inr (.inr (.inl h))) (by simp) (by simp)
  | record f h hf hc hd => exact inv_record hs h hf hd
  | recordFault k h hf hc hd =>
    exact inv_takeDecodeFault hs (.inr (.inr (.inr h))) (by simp) (by simp [mfuDecode_error hd])
  | recordStop h hf => exact inv_recordStop hs h
  | encHdr h => exact inv_encHdr hs h
  | encTp f h hf hc => exact inv_encTp hs h hc
  | encTpFault f h hf hc =>
    exact inv_takeEncodeFault hs (.inr (.inl h)) (by rintro hn; simp [hn] at hf) (by simp) (Nat.zero_le _)
  | encFrame f b h hf he hc => exact inv_encFrame hs h (List.getElem?_eq_some_iff.1 hf).1 hc
  | encFrameError f k h hf he =>
    exact inv_takeEncodeFault hs (.inr (.inr h)) (by rintro hn; simp [hn] at hf)
      (by simp [mfuEncode_error he]) hs.bounded.eidx_le
  | encFrameFault f b h hf he hc =>
    exact inv_takeEncodeFault hs (.inr (.inr h)) (by rintro hn; simp [hn] at hf) (by simp) hs.bounded.eidx_le
  | encStop h he => exact inv_encStop hs h
  | writeReg r v hi h => exact inv_writeRegIdle hs r v
  | writeIbuf a b hop h ha => exact inv_writeIbuf hs b ha
  | writeApay a b hop h ha => exact inv_writeApay hs b ha

/-- Settles O50: a step is a reset, whose state is sound, or one of the changes of `Change`. -/
theorem stepKeepsInvariant : Obligations.StepKeepsInvariant := by
  intro s t hs h
  rcases step_cases h with ⟨rest, -, rfl⟩ | hchange
  · exact inv_host (inv_resetWith _ _) rest
  · exact inv_of_change (inv_host hs _) hchange

end Sys2Proof.Machine
end

section
/-! PROOF. Whenever the output is valid it is the encoding of the packet (10_state.md R41; O51), from the reset
state on (O2). A step either leaves alone what the output conditions read (`State.outputPart`), or ends where no
output is claimed, or is one of the encode's steps that go on (43_data_packet_encode.md R182 to R185). -/

namespace Sys2Proof.Machine

/-- Both conditions on the output: no unspecified byte, and the encoding of the packet (10_state.md R41). -/
structure State.OutputCorrect (s : State) : Prop where
  written : s.OutputWritten
  ok : s.OutputOk

/-- An encode is past its first step, so OBUF holds a part of the output (43_data_packet_encode.md R182). -/
def State.emitting (s : State) : Prop := s.phase = .eTp ∨ s.phase = .eFr

theorem encoding_of_emitting {s : State} (h : s.emitting) : s.encoding := .inr h

theorem not_emitting_of_idle {s : State} (h : s.phase = .idle) : ¬ s.emitting :=
  mt encoding_of_emitting (not_encoding_of_idle h)

theorem not_emitting_of_decoding {s : State} (h : s.decoding) : ¬ s.emitting :=
  mt encoding_of_emitting (not_encoding_of_decoding h)

/-! When the output conditions hold without an encode's step. -/

/-- The part of the state that the output conditions read; everything else is erased. -/
def State.outputPart (s : State) : State :=
  { s with
    ctrl := 0#32, fps := 0, fpsSet := false, bufLen := 0, status := .empty, offset := 0
    errKind := none, errCause := none, errOffset := 0, errLen := 0, errIndex := 0, refCode := none
    aFlags := 0#3, aTs := ⟨0⟩, aHdr := 0#16, aSync := 0#32, aSfid := 0#16, aPlen := 0
    ibuf := [], apay := [], latchL := 0, latchX := false, latchP := 0, latchPV := false
    ret := .empty, host := [], answer := .none }

theorem outputCorrect_iff_outputPart (s : State) : s.OutputCorrect ↔ s.outputPart.OutputCorrect :=
  ⟨fun ⟨hw, ho⟩ => ⟨hw, { ho with }⟩, fun ⟨hw, ho⟩ => ⟨hw, { ho with }⟩⟩

/-- A change outside the output's part keeps the output conditions. -/
theorem outputCorrect_of_outputPart_eq {s t : State} (hs : s.OutputCorrect)
    (h : t.outputPart = s.outputPart) : t.OutputCorrect :=
  (outputCorrect_iff_outputPart t).2 (h ▸ (outputCorrect_iff_outputPart s).1 hs)

/-- Where no output is valid and no encode is past its first step, nothing is claimed of OBUF. -/
theorem outputCorrect_of_not_emitting {s : State} (hv : s.outValid = false) (he : ¬ s.emitting) :
    s.OutputCorrect where
  written h := by
    rcases h with h | h
    · simp [hv] at h
    · exact absurd h he
  ok := {
    valid := fun h => by simp [hv] at h
    eTp := fun h => absurd (.inl h) he
    eFr := fun h => absurd (.inr h) he }

/-- Outside a command the conditions are those of a valid output. -/
theorem outputCorrect_of_idle {s : State} {out : Bytes} (hi : s.phase = .idle)
    (hw : ∀ k, k < s.outLen → (Memory.get s.obuf k).isSome = true)
    (hout : s.obufSlice 0 s.outLen = out)
    (hv : dpEncode s.codec s.modeWord s.frames s.latchS s.params.outCap = .ok out) :
    s.OutputCorrect where
  written _ := hw
  ok := {
    valid := fun _ => hout ▸ hv
    eTp := fun h => by simp [hi] at h
    eFr := fun h => by simp [hi] at h }

/-- Before the throughput body the output is the mode word (43_data_packet_encode.md R182). -/
theorem outputCorrect_of_eTp {s : State} (hp : s.phase = .eTp) (hv : s.outValid = false)
    (hw : ∀ k, k < s.outLen → (Memory.get s.obuf k).isSome = true)
    (hout : s.obufSlice 0 s.outLen = le32Enc s.modeWord) : s.OutputCorrect where
  written _ := hw
  ok := {
    valid := fun h => by simp [hv] at h
    eTp := fun _ => hout
    eFr := fun h => by simp [hp] at h }

/-- In the framed encode, the output so far is the start of an encode that goes on from frame EIDX
(43_data_packet_encode.md R184). -/
theorem outputCorrect_of_eFr {s : State} {out : Bytes} (hp : s.phase = .eFr) (hv : s.outValid = false)
    (hw : ∀ k, k < s.outLen → (Memory.get s.obuf k).isSome = true)
    (hout : s.obufSlice 0 s.outLen = out)
    (hrest : dpEncode s.codec s.modeWord s.frames s.latchS s.params.outCap
      = encodeFrames s.codec s.latchS s.params.outCap s.eidx out (s.frames.drop s.eidx)) :
    s.OutputCorrect where
  written _ := hw
  ok := {
    valid := fun h => by simp [hv] at h
    eTp := fun h => by simp [hp] at h
    eFr := fun _ => hout ▸ hrest }

/-- A decode runs without a valid output, and no step of it makes one (42_data_packet_decode.md R160). -/
theorem outputCorrect_of_decoding {s t : State} (hs : s.Inv) (hd : s.decoding)
    (hv : t.outValid = s.outValid) (he : ¬ t.emitting) : t.OutputCorrect :=
  outputCorrect_of_not_emitting (hv.trans (hs.encode.not_valid (phase_ne_idle_of_decoding hd))) he

/-! Register writes. -/

/-- A write of MODE_WORD in EMPTY takes the output back (10_state.md R37, R41). -/
theorem outputCorrect_writeModeWord {s : State} (hs : s.Inv) (ho : s.OutputCorrect) (v : Nat) :
    (s.writeModeWord v).OutputCorrect := by
  unfold State.writeModeWord
  split
  · next h => exact outputCorrect_of_not_emitting rfl (not_emitting_of_idle (hs.idle (by simp [h])))
  all_goals exact outputCorrect_of_outputPart_eq ho rfl

/-- A register write other than one of MODE_WORD leaves the output's part alone (44_host_commands.md R208). -/
theorem outputPart_writeRegIdle (s : State) {r : Reg} (hr : r ≠ .modeWord) (v : Nat) :
    (s.writeRegIdle r v).outputPart = s.outputPart := by
  cases r with
  | modeWord => exact absurd rfl hr
  | bufLen => simp only [State.writeRegIdle, State.writeBufLen]; split <;> rfl
  | aPlen => simp only [State.writeRegIdle, State.writeAPlen]; split <;> rfl
  | _ => rfl

theorem outputCorrect_writeRegIdle {s : State} (hs : s.Inv) (ho : s.OutputCorrect) (r : Reg) (v : Nat) :
    (s.writeRegIdle r v).OutputCorrect := by
  by_cases hr : r = .modeWord
  · subst hr
    exact outputCorrect_writeModeWord hs ho v
  · exact outputCorrect_of_outputPart_eq ho (outputPart_writeRegIdle s hr v)

/-! Bytes emitted at the end of the output. -/

/-- The output after bytes were written at its end. -/
theorem obufSlice_outLen_of_emit {s t : State} {n : Nat} {v : Bytes}
    (ho : t.obuf = Memory.setBytes s.obuf n v) (hr : t.resets = s.resets)
    (hl : t.outLen = n + v.length) : t.obufSlice 0 t.outLen = s.obufSlice 0 n ++ v := by
  have hobuf : t.obuf = (s.memWrite n v).obuf := ho
  rw [hl, obufSlice_congr hobuf hr, obufSlice_memWrite]

/-- Bytes written at the end of written bytes leave none unwritten. -/
theorem get_setBytes_isSome {m : Memory} {n : Nat} {v : Bytes}
    (h : ∀ k, k < n → (Memory.get m k).isSome = true) (k : Nat) (hk : k < n + v.length) :
    (Memory.get (Memory.setBytes m n v) k).isSome = true := by
  by_cases hn : k < n
  · rw [Memory.get_setBytes_below _ _ _ _ hn]
    exact h k hn
  · obtain ⟨i, rfl⟩ := Nat.exists_eq_add_of_le (Nat.not_lt.1 hn)
    simp [Memory.get_setBytes_inside _ _ _ _ (show i < v.length by omega)]

/-! The big-step encode (43_data_packet_encode.md R180), one equation a case. -/

theorem dpEncode_throughput {c : Codec} {mw : U32} {f : MinorFrame} {frames : List MinorFrame} {src : TsSrc}
    {cap : Nat} (htp : modeWordTp mw = true) (hf : frames.head? = some f)
    (hc : 4 + f.payload.length ≤ cap) :
    dpEncode c mw frames src cap = .ok (le32Enc mw ++ f.payload) := by
  obtain ⟨fs, rfl⟩ := List.head?_eq_some_iff.1 hf
  simp [dpEncode, htp, mfEncTp, modeWordBytes, hc]

theorem dpEncode_framed {c : Codec} {mw : U32} {frames : List MinorFrame} {src : TsSrc} {cap : Nat}
    (htp : modeWordTp mw = false) :
    dpEncode c mw frames src cap = encodeFrames c src cap 0 (le32Enc mw) frames := by
  simp [dpEncode, htp]

/-- The loop emits the frame it is at, with its pad, and goes on at the next one. -/
theorem encodeFrames_drop {c : Codec} {src : TsSrc} {cap i : Nat} {out b : Bytes} {f : MinorFrame}
    {frames : List MinorFrame} (hf : frames[i]? = some f) (he : mfuEncode c f src = .ok b)
    (hc : out.length + b.length + b.length % 2 ≤ cap) :
    encodeFrames c src cap i out (frames.drop i)
      = encodeFrames c src cap (i + 1) (out ++ (b ++ padBytes b.length)) (frames.drop (i + 1)) := by
  obtain ⟨hi, rfl⟩ := List.getElem?_eq_some_iff.1 hf
  rw [List.drop_eq_getElem_cons hi, encodeFrames, he, ← List.append_assoc]
  exact if_pos hc

/-! The encode steps that go on (43_data_packet_encode.md R182 to R185). -/

/-- The header step emits the mode word and routes by its bit 20 (R182). -/
theorem outputCorrect_encHdr {s : State} (hs : s.Inv) (h : s.phase = .eHdr) :
    ({ s.memWrite 0 (le32Enc s.modeWord) with
      outLen := 4, phase := encodeRoute s.modeWord } : State).OutputCorrect := by
  obtain ⟨-, heidx⟩ := hs.encode.eHdr h
  have hv : s.outValid = false := hs.encode.not_valid (by simp [h])
  have hw : ∀ k, k < 4 → (Memory.get (Memory.setBytes s.obuf 0 (le32Enc s.modeWord)) k).isSome = true :=
    get_setBytes_isSome (n := 0) (v := le32Enc s.modeWord) fun _ hk => absurd hk (Nat.not_lt_zero _)
  rcases encodeRoute_eq_or s.modeWord with hr | hr
  · exact outputCorrect_of_eTp hr hv hw (obufSlice_outLen_of_emit (n := 0) rfl rfl rfl)
  · have hrest : dpEncode s.codec s.modeWord s.frames s.latchS s.params.outCap
        = encodeFrames s.codec s.latchS s.params.outCap s.eidx (le32Enc s.modeWord)
            (s.frames.drop s.eidx) := by
      rw [heidx]
      exact dpEncode_framed (encodeRoute_eq_eFr.1 hr)
    exact outputCorrect_of_eFr hr hv hw (obufSlice_outLen_of_emit (n := 0) rfl rfl rfl) hrest

/-- The throughput body completes the output (R183). -/
theorem outputCorrect_encTp {s : State} (hs : s.Inv) (ho : s.OutputCorrect) {f : MinorFrame}
    (h : s.phase = .eTp) (hf : s.frames.head? = some f) (hc : 4 + f.payload.length ≤ s.params.outCap) :
    ({ s.memWrite 4 f.payload with outLen := 4 + f.payload.length } : State).endEncode.OutputCorrect := by
  obtain ⟨htp, hlen⟩ := hs.encode.eTp h
  have hw := ho.written (.inr (.inl h))
  have hout := ho.ok.eTp h
  rw [hlen] at hw hout
  have henc : dpEncode s.codec s.modeWord s.frames s.latchS s.params.outCap
      = .ok (s.obufSlice 0 4 ++ f.payload) := by
    rw [hout]
    exact dpEncode_throughput htp hf hc
  exact outputCorrect_of_idle rfl (get_setBytes_isSome hw)
    (obufSlice_outLen_of_emit (s := s) rfl rfl rfl) henc

/-- A frame step emits the frame and its pad, and the rest of the encode follows from there (R184). -/
theorem outputCorrect_encFrame {s : State} (hs : s.Inv) (ho : s.OutputCorrect) {f : MinorFrame} {b : Bytes}
    (h : s.phase = .eFr) (hf : s.frames[s.eidx]? = some f) (he : mfuEncode s.codec f s.latchS = .ok b)
    (hc : s.outLen + b.length + b.length % 2 ≤ s.params.outCap) :
    ({ s.memWrite s.outLen (b ++ padBytes b.length) with
      outLen := s.outLen + b.length + b.length % 2, eidx := s.eidx + 1 } : State).OutputCorrect := by
  have hlen : s.outLen + b.length + b.length % 2 = s.outLen + (b ++ padBytes b.length).length := by
    simp [length_padBytes, Nat.add_assoc]
  exact outputCorrect_of_eFr h (hs.encode.not_valid (by simp [h]))
    (fun k hk => get_setBytes_isSome (ho.written (.inr (.inr h))) k (hlen ▸ hk))
    (obufSlice_outLen_of_emit (s := s) rfl rfl hlen)
    ((ho.ok.eFr h).trans (encodeFrames_drop hf he (by simpa using hc)))

/-- After the last frame the output is complete (R185). -/
theorem outputCorrect_encStop {s : State} (ho : s.OutputCorrect) (h : s.phase = .eFr)
    (he : s.eidx = s.frames.length) : s.endEncode.OutputCorrect := by
  have hrest := ho.ok.eFr h
  rw [he, List.drop_length] at hrest
  exact outputCorrect_of_idle rfl (ho.written (.inr (.inr h))) rfl hrest

/-! Every step. -/

/-- The reset state claims no output (10_state.md R49). -/
theorem outputCorrect_resetWith (p : Params) (n : Nat) : (State.resetWith p n).OutputCorrect :=
  outputCorrect_of_not_emitting rfl (not_emitting_of_idle rfl)

/-- Every change that a step can make keeps the output conditions. -/
theorem outputCorrect_of_change {op : Option HostOp} {s t : State} (hs : s.Inv) (ho : s.OutputCorrect)
    (h : Change op s t) : t.OutputCorrect := by
  cases h with
  | same => exact ho
  | answer a => exact outputCorrect_of_outputPart_eq ho rfl
  | refuse c => exact outputCorrect_of_outputPart_eq ho rfl
  | clear v hop hv h => exact outputCorrect_of_not_emitting rfl (not_emitting_of_idle (hs.idle h))
  | startDecode h => exact outputCorrect_of_not_emitting rfl (not_emitting_of_decoding (.inl rfl))
  | startEncode h => exact outputCorrect_of_not_emitting rfl (by simp [State.emitting])
  | append pay h hr hp =>
    have hi : s.phase = .idle := hs.idle (by rcases h with h | h <;> simp [h])
    exact outputCorrect_of_not_emitting rfl (not_emitting_of_idle hi)
  | modeShort h hl => exact outputCorrect_of_not_emitting rfl (not_emitting_of_idle rfl)
  | mode h hl hc =>
    have hroute := decodeRoute_eq_or (le32 (s.ibufSlice 0 4))
    exact outputCorrect_of_decoding hs (.inl h) rfl
      (not_emitting_of_decoding (.inr (hroute.imp_right .inl)))
  | bodyTp h hc => exact outputCorrect_of_decoding hs (.inr (.inl h)) rfl (not_emitting_of_idle rfl)
  | enterFr h hp =>
    exact outputCorrect_of_decoding hs (.inr (.inr (.inl h))) rfl
      (not_emitting_of_decoding (.inr (.inr (.inr rfl))))
  | noFps h hp => exact outputCorrect_of_not_emitting rfl (not_emitting_of_idle rfl)
  | record f h hf hc hd =>
    have hdec : s.decoding := .inr (.inr (.inr h))
    exact outputCorrect_of_decoding hs hdec rfl (not_emitting_of_decoding hdec)
  | recordFault k h hf hc hd => exact outputCorrect_of_not_emitting rfl (not_emitting_of_idle rfl)
  | recordStop h hf =>
    exact outputCorrect_of_decoding hs (.inr (.inr (.inr h))) rfl (not_emitting_of_idle rfl)
  | encHdr h => exact outputCorrect_encHdr hs h
  | encTp f h hf hc => exact outputCorrect_encTp hs ho h hf hc
  | encTpFault f h hf hc => exact outputCorrect_of_not_emitting rfl (not_emitting_of_idle rfl)
  | encFrame f b h hf he hc => exact outputCorrect_encFrame hs ho h hf he hc
  | encFrameError f k h hf he => exact outputCorrect_of_not_emitting rfl (not_emitting_of_idle rfl)
  | encFrameFault f b h hf he hc => exact outputCorrect_of_not_emitting rfl (not_emitting_of_idle rfl)
  | encStop h he => exact outputCorrect_encStop ho h he
  | writeReg r v hi h => exact outputCorrect_writeRegIdle hs ho r v
  | writeIbuf a b hop h ha => exact outputCorrect_of_outputPart_eq ho rfl
  | writeApay a b hop h ha => exact outputCorrect_of_outputPart_eq ho rfl

/-- Settles O51: a step is a reset, which claims no output, or one of the changes of `Change`. -/
theorem outputStaysEncodingOfPacket : Obligations.OutputStaysEncodingOfPacket := by
  intro s t hs hw hok h
  have hout : t.OutputCorrect := by
    rcases step_cases h with ⟨rest, -, rfl⟩ | hchange
    · exact outputCorrect_of_outputPart_eq (outputCorrect_resetWith _ _) rfl
    · exact outputCorrect_of_change (inv_host hs s.host.tail)
        (outputCorrect_of_outputPart_eq ⟨hw, hok⟩ rfl) hchange
  exact ⟨hout.written, hout.ok⟩

/-- Settles O2: the base case of O50 and O51. -/
theorem resetMeetsInvariant : Obligations.ResetMeetsInvariant := by
  intro p n
  have hout := outputCorrect_resetWith p n
  exact ⟨inv_resetWith p n, hout.written, hout.ok⟩

end Sys2Proof.Machine
end

section
/-! PROOF. What a step does to the frame store (10_state.md R43; O56) and to STATE (10_state.md R48; O57). Each
is said once for the changes of `Change` (Laws/Step.lean). -/

namespace Sys2Proof.Machine

/-! Register writes. -/

/-- A register write touches neither the frame store nor STATE (44_host_commands.md R208). -/
theorem frames_status_writeRegIdle (s : State) (r : Reg) (v : Nat) :
    (s.writeRegIdle r v).frames = s.frames ∧ (s.writeRegIdle r v).status = s.status := by
  cases r with
  | bufLen => simp only [State.writeRegIdle, State.writeBufLen]; split <;> exact ⟨rfl, rfl⟩
  | aPlen => simp only [State.writeRegIdle, State.writeAPlen]; split <;> exact ⟨rfl, rfl⟩
  | modeWord => simp only [State.writeRegIdle, State.writeModeWord]; split <;> exact ⟨rfl, rfl⟩
  | _ => exact ⟨rfl, rfl⟩

/-! The frame store. -/

/-- A change leaves the frame store, appends one frame at its tail, or empties it (10_state.md R43). The
throughput body is an append, since the store is empty while a throughput decode runs. -/
theorem frames_of_change {op : Option HostOp} {s t : State} (hs : s.Inv) (h : Change op s t) :
    t.frames = s.frames ∨ (∃ f, t.frames = s.frames ++ [f]) ∨ t.frames = [] := by
  cases h with
  | append pay h hr hp => exact .inr (.inl ⟨s.stagedFrame pay, rfl⟩)
  | record f h hf hc hd => exact .inr (.inl ⟨f, rfl⟩)
  | bodyTp h hc =>
    obtain ⟨-, -, -, hempty⟩ := hs.decode.dTp h
    exact .inr (.inl ⟨.tp (s.ibufSlice 4 (s.latchL - 4)), by simp [hempty]⟩)
  | clear | modeShort | noFps | recordFault => exact .inr (.inr rfl)
  | writeReg r v hi h => exact .inl (frames_status_writeRegIdle s r v).1
  | _ => exact .inl rfl

/-- Settles O56: a step is a reset, which empties the store, or one of the changes of `Change`. -/
theorem frameStoreIsAppendOnly : Obligations.FrameStoreIsAppendOnly := by
  intro s t hs h
  rcases step_cases h with ⟨rest, -, rfl⟩ | hchange
  · exact .inr (.inr rfl)
  · exact (frames_of_change (inv_host hs s.host.tail) hchange :)

/-! STATE. -/

/-- What a decode fault of a running decode ends with (60_exceptions.md R224). -/
def State.DecodeFaulted (s t : State) : Prop :=
  s.decoding ∧ t.status = .faulted ∧ t.errKind ≠ none ∧ t.frames = []

theorem decodeFaulted_takeDecodeFault {s : State} (hd : s.decoding) (k : ErrKind) (c : Option ErrKind) :
    State.DecodeFaulted s (s.takeDecodeFault k c) := by
  refine ⟨hd, rfl, ?_, rfl⟩
  cases hn : s.errKind <;> simp [State.onFirstFault, hn]

/-- What a change does to STATE (10_state.md R48): it stays, or CMD.CLEAR sets it, or a decode fault makes it
FAULTED, or it changes among the other three values. -/
theorem status_of_change {op : Option HostOp} {s t : State} (hs : s.Inv) (h : Change op s t) :
    t.status = s.status ∨ (∃ v, op = some (.write 3 v) ∧ v % 8 = 1 ∧ t.status = .empty)
      ∨ State.DecodeFaulted s t ∨ (s.status ≠ .faulted ∧ t.status ≠ .faulted) := by
  have hbusy : s.phase ≠ .idle → s.status ≠ .faulted := fun hp => by simp [hs.busy hp]
  cases h with
  | clear v hop hv h => exact .inr (.inl ⟨v, hop, hv, rfl⟩)
  | modeShort h hl => exact .inr (.inr (.inl (decodeFaulted_takeDecodeFault (.inl h) _ _)))
  | noFps h hp => exact .inr (.inr (.inl (decodeFaulted_takeDecodeFault (.inr (.inr (.inl h))) _ _)))
  | recordFault k h hf hc hd =>
    exact .inr (.inr (.inl (decodeFaulted_takeDecodeFault (.inr (.inr (.inr h))) _ _)))
  | startDecode h => exact .inr (.inr (.inr ⟨by simp [h], by simp⟩))
  | startEncode h => exact .inr (.inr (.inr ⟨by rcases h with h | ⟨h, -⟩ <;> simp [h], by simp⟩))
  | append pay h hr hp => exact .inr (.inr (.inr ⟨by rcases h with h | h <;> simp [h], by simp⟩))
  | bodyTp h hc | recordStop h hf => exact .inr (.inr (.inr ⟨hbusy (by simp [h]), by simp⟩))
  | encTp f h hf hc | encTpFault f h hf hc | encFrameError f k h hf he | encFrameFault f b h hf he hc
  | encStop h he => exact .inr (.inr (.inr ⟨hbusy (by simp [h]), ret_status_ne_faulted _⟩))
  | writeReg r v hi h => exact .inl (frames_status_writeRegIdle s r v).2
  | _ => exact .inl rfl

/-- Settles O57: a reset leaves FAULTED and does not enter it; for the other steps `status_of_change` says when
STATE becomes FAULTED and when it stops being so. -/
theorem faultedEntryAndExit : Obligations.FaultedEntryAndExit := by
  intro s t hs h
  rcases step_cases h with ⟨rest, hhost, rfl⟩ | hchange
  · exact ⟨fun ht => (by cases ht), fun _ _ => .inl ⟨rest, hhost⟩⟩
  · rcases status_of_change (inv_host hs s.host.tail) hchange with
      heq | ⟨v, hop, hv, hempty⟩ | ⟨hd, ht, hkind, hframes⟩ | ⟨hsf, htf⟩
    · exact ⟨fun ht hsf => absurd (heq.symm.trans ht) hsf, fun hsf htf => absurd (heq.trans hsf) htf⟩
    · obtain ⟨rest, hhost⟩ := List.head?_eq_some_iff.1 hop
      exact ⟨fun ht => by simp [hempty] at ht, fun _ _ => .inr ⟨v, rest, hhost, hv⟩⟩
    · exact ⟨fun _ _ => ⟨hs.busy (phase_ne_idle_of_decoding hd), hd, hkind, hframes⟩,
        fun _ htf => absurd ht htf⟩
    · exact ⟨fun ht => absurd ht htf, fun hsf' => absurd hsf' hsf⟩

end Sys2Proof.Machine
end

section
/-! PROOF. The values after reset (10_state.md R49; O1), what STATUS and the registers show (R28, R35; O40, O41)
and the host's byte writes (R42, R44; O39). -/

namespace Sys2Proof.Machine

/-! Byte writes to IBUF and A_PAY. -/

/-- A byte memory with one byte written, read with a default value (20_memory.md R70). -/
theorem getD_get_set (m : Memory) (a k : Nat) (b d : Byte) :
    (Memory.get (Memory.set m a b) k).getD d = if k = a then b else (Memory.get m k).getD d := by
  split
  · next h => simp [h]
  · next h => rw [Memory.get_set_other _ _ _ _ h]

theorem writeIbuf_of_lt {s : State} {a : Nat} (h : s.status ≠ .busy) (ha : a < s.params.bufCap) (b : Byte) :
    s.writeIbuf a b = { s with ibuf := Memory.set s.ibuf a b } := by
  simp [State.writeIbuf, h, ha]

theorem writeIbuf_of_ge {s : State} {a : Nat} (h : s.status ≠ .busy) (ha : s.params.bufCap ≤ a) (b : Byte) :
    s.writeIbuf a b = s.refuse .capacity := by
  simp [State.writeIbuf, h, Nat.not_lt.2 ha]

theorem writeApay_of_lt {s : State} {a : Nat} (h : s.status ≠ .busy) (ha : a < s.params.payCap) (b : Byte) :
    s.writeApay a b = { s with apay := Memory.set s.apay a b } := by
  simp [State.writeApay, h, ha]

theorem writeApay_of_ge {s : State} {a : Nat} (h : s.status ≠ .busy) (ha : s.params.payCap ≤ a) (b : Byte) :
    s.writeApay a b = s.refuse .capacity := by
  simp [State.writeApay, h, Nat.not_lt.2 ha]

/-- Settles O39: each buffer at an address that exists, and at one that does not. -/
theorem byteWritesChangeOneByte : Obligations.ByteWritesChangeOneByte := by
  intro s a b h
  refine ⟨fun ha => ?_, fun ha => writeIbuf_of_ge h ha b, fun ha => ?_, fun ha => writeApay_of_ge h ha b⟩
  · rw [writeIbuf_of_lt h ha]
    exact ⟨rfl, fun k => getD_get_set s.ibuf a k b _⟩
  · rw [writeApay_of_lt h ha]
    exact ⟨rfl, fun k => getD_get_set s.apay a k b _⟩

/-! Reset. -/

theorem extract_resetWith (p : Params) (n : Nat) : (State.resetWith p n).extract = false := by
  simp [State.extract]

theorem tsSrc_resetWith (p : Params) (n : Nat) : (State.resetWith p n).tsSrc = .rtc := by
  simp [State.tsSrc, TsSrc.ofBit]

/-- No bit of STATUS is set after reset (10_state.md R35, R49). -/
theorem statusWord_resetWith (p : Params) (n : Nat) : (State.resetWith p n).statusWord = 0#32 := by
  simp [State.statusWord, State.tp, modeWordTp, State.refused, State.err, TsSrc.bit, Status.code]

/-- After reset no host action is due and no command runs, so the machine waits (70_reset_and_hazards.md
R252). -/
theorem step_resetWith (p : Params) (n : Nat) : step (State.resetWith p n) = .next (State.resetWith p n) := by
  simp [step, fetch, State.fetchStep]

/-- Settles O1: the listed values stand in `State.resetWith`. -/
theorem resetGivesListedValues : Obligations.ResetGivesListedValues := by
  intro p n s
  exact ⟨⟨rfl, extract_resetWith p n, tsSrc_resetWith p n, rfl, rfl, rfl, statusWord_resetWith p n, rfl, rfl,
      rfl, rfl, rfl⟩,
    ⟨rfl, rfl, rfl, rfl, rfl, rfl, rfl, rfl⟩, ⟨rfl, rfl, rfl, rfl, rfl⟩,
    ⟨rfl, rfl, rfl, rfl, rfl, rfl, rfl, rfl⟩, fun a => ⟨rfl, rfl, rfl⟩, rfl, step_resetWith p n⟩

/-! STATUS and the output pins. -/

theorem getLsbD_append_ofBool {w : Nat} (x : BitVec w) (b : Bool) (i : Nat) :
    (x ++ BitVec.ofBool b).getLsbD i = if i = 0 then b else x.getLsbD (i - 1) := by
  rw [BitVec.getLsbD_append]
  rcases i with _ | i <;> simp

/-- The bits of STATUS above the two of STATE (10_state.md R35). -/
theorem getLsbD_statusWord (s : State) (i : Nat) :
    s.statusWord.getLsbD (i + 2) = match i with
      | 0 => s.err
      | 1 => s.refused
      | 2 => s.fpsSet
      | 3 => s.outValid
      | 4 => s.tp
      | 5 => s.latchS.bit
      | 6 => s.latchX
      | _ => false := by
  rw [State.statusWord, BitVec.getLsbD_append, if_neg (by omega), Nat.add_sub_cancel]
  simp only [getLsbD_append_ofBool]
  rcases i with _ | _ | _ | _ | _ | _ | _ | i <;> simp

/-- STATE stands in the two low bits of STATUS (10_state.md R35). -/
theorem extractLsb'_statusWord (s : State) : s.statusWord.extractLsb' 0 2 = s.status.code := by
  refine BitVec.eq_of_getLsbD_eq fun i hi => ?_
  rw [BitVec.getLsbD_extractLsb', State.statusWord, BitVec.getLsbD_append]
  simp [hi]

/-- Settles O40: each bit is the flag that stands there. -/
theorem statusWordBits : Obligations.StatusWordBits := by
  intro s
  refine ⟨?_, ?_, ?_, getLsbD_statusWord s 2, getLsbD_statusWord s 3, getLsbD_statusWord s 4, ?_,
    getLsbD_statusWord s 6, fun i hi => ?_, ?_, ?_⟩
  · rw [extractLsb'_statusWord]
    cases s.status <;> rfl
  · simp only [getLsbD_statusWord s 0, State.err, Option.isSome_iff_ne_none]
  · simp only [getLsbD_statusWord s 1, State.refused, Option.isSome_iff_ne_none]
  · rw [getLsbD_statusWord s 5]
    cases s.latchS <;> simp [TsSrc.bit]
  · obtain ⟨k, rfl⟩ := Nat.exists_eq_add_of_le' hi
    exact getLsbD_statusWord s (k + 7)
  · simp [State.busyPin]
  · simp only [State.errPin, State.err, Option.isSome_iff_ne_none]

/-! Register reads. -/

/-- A read of a register that exists answers its value and changes nothing else (20_memory.md R71). -/
theorem hostRead_of_regValue {s : State} {n v : Nat} {r : Reg} (hr : regOfNumber n = some r)
    (hv : s.regValue r = v) : s.hostRead n = .next { s with answer := .reg v } := by
  subst hv
  simp only [State.hostRead, hr]
  rfl

/-- ERR_KIND reads as the codes of 60_exceptions.md R220. -/
theorem regValue_errKind (s : State) : s.regValue .errKind = match s.errKind with
    | none => 0 | some .malformedBuffer => 1 | some .configurationError => 2
    | some .offsetDecodeError => 3 | some .capacityError => 4 := by
  rw [State.regValue]
  rcases s.errKind with _ | _ | _ | _ | _ <;> rfl

/-- REF_CODE reads as the codes of 10_state.md R40. -/
theorem regValue_refCode (s : State) : s.regValue .refCode = match s.refCode with
    | none => 0 | some .badState => 1 | some .locked => 2 | some .invariant => 3
    | some .capacity => 4 | some .badCmd => 5 := by
  rw [State.regValue]
  rcases s.refCode with _ | _ | _ | _ | _ | _ <;> rfl

/-- Settles O41: each number names its register (10_state.md R28), and the register has the listed value. -/
theorem registerReads : Obligations.RegisterReads := by
  intro s
  refine ⟨fun n v hmem => ?_, hostRead_of_regValue rfl (regValue_errKind s),
    hostRead_of_regValue rfl (regValue_refCode s),
    fun h => hostRead_of_regValue (r := .errCause) rfl (by simp [State.regValue, h, errCode]),
    fun h => hostRead_of_regValue (r := .errCause) rfl (by simp [State.regValue, h, errCode, ErrKind.code])⟩
  have hreg : ∃ r, regOfNumber n = some r ∧ s.regValue r = v := by
    simp only [List.mem_cons, Prod.mk.injEq, List.not_mem_nil, or_false] at hmem
    casesm* _ ∨ _, _ ∧ _ <;> subst_vars <;> exact ⟨_, rfl, rfl⟩
  obtain ⟨r, hr, hv⟩ := hreg
  exact hostRead_of_regValue hr hv

end Sys2Proof.Machine
end

section
/-! PROOF. The equality of packets (10_state.md R26, R27; O60). -/

namespace Sys2Proof.Machine

/-- Frame sequences are compared index by index, as far as both go (10_state.md R27). -/
theorem framesEq_iff_getElem? (fs gs : List MinorFrame) : framesEq fs gs = true ↔
    ∀ (i : Nat) (f g : MinorFrame), fs[i]? = some f → gs[i]? = some g → mfEq f g = true := by
  induction fs generalizing gs with
  | nil => simp [framesEq]
  | cons f fs ih =>
    cases gs with
    | nil => simp [framesEq]
    | cons g gs =>
      rw [framesEq, Bool.and_eq_true, ih]
      constructor
      · rintro ⟨hhead, htail⟩ (_ | i) f' g' hf hg
        · obtain rfl : f = f' := by simpa using hf
          obtain rfl : g = g' := by simpa using hg
          exact hhead
        · exact htail i f' g' (by simpa using hf) (by simpa using hg)
      · intro h
        exact ⟨h 0 f g rfl rfl, fun i f' g' hf hg => h (i + 1) f' g' (by simpa using hf) (by simpa using hg)⟩

/-- Packets are equal by R27 iff their mode words and their frames are the same. -/
theorem dpEq_iff_eq (p q : Packet) : dpEq p q = true ↔ p.modeWord = q.modeWord ∧ p.frames = q.frames := by
  constructor
  · intro h
    simp only [dpEq, Bool.and_eq_true, decide_eq_true_eq, framesEq_iff_getElem?, mfEq_iff_eq] at h
    obtain ⟨⟨hmode, hlen⟩, hframes⟩ := h
    refine ⟨hmode, List.ext_getElem hlen fun i hp hq => ?_⟩
    exact hframes i _ _ (List.getElem?_eq_getElem hp) (List.getElem?_eq_getElem hq)
  · rintro ⟨hmode, hframes⟩
    exact dpEq_of_eq hmode hframes

/-- Settles O60: R27's three comparisons, the frames field by field, and that frames with equal fields are equal
(10_state.md R22). -/
theorem packetEquality : Obligations.PacketEquality := by
  refine ⟨fun p q => ?_, fun s t => dpEq_iff_eq s.packet t.packet⟩
  simp only [dpEq, Bool.and_eq_true, decide_eq_true_eq, framesEq_iff_getElem?, mfEq_iff_fields, and_assoc]

end Sys2Proof.Machine
end

section
/-! PROOF. Each buffer changes only by its writer (20_memory.md R61; O58), said once for the changes of `Change`
(Laws/Step.lean), and a decode step reads no byte of IBUF at or above L (20_memory.md R62; O59), said as one
equation a step: to replace those bytes before the step or after it is the same. -/

namespace Sys2Proof.Machine

/-! The buffers' writers (20_memory.md R61). -/

/-- A register write touches neither the parameters nor a buffer (44_host_commands.md R208). -/
theorem buffers_writeRegIdle (s : State) (r : Reg) (v : Nat) :
    (s.writeRegIdle r v).params = s.params ∧ (s.writeRegIdle r v).ibuf = s.ibuf
      ∧ (s.writeRegIdle r v).apay = s.apay ∧ (s.writeRegIdle r v).obuf = s.obuf := by
  cases r with
  | bufLen => simp only [State.writeRegIdle, State.writeBufLen]; split <;> exact ⟨rfl, rfl, rfl, rfl⟩
  | aPlen => simp only [State.writeRegIdle, State.writeAPlen]; split <;> exact ⟨rfl, rfl, rfl, rfl⟩
  | modeWord => simp only [State.writeRegIdle, State.writeModeWord]; split <;> exact ⟨rfl, rfl, rfl, rfl⟩
  | _ => exact ⟨rfl, rfl, rfl, rfl⟩

/-- What a change does to the parameters and the buffers: the host's byte writes reach IBUF and A_PAY, the steps
of an encode that emit reach OBUF, and nothing else reaches any of them. -/
theorem buffers_of_change {op : Option HostOp} {s t : State} (h : Change op s t) :
    t.params = s.params
      ∧ (t.ibuf = s.ibuf ∨ ∃ a b, op = some (.writeIbuf a b))
      ∧ (t.apay = s.apay ∨ ∃ a b, op = some (.writeApay a b))
      ∧ (t.obuf = s.obuf ∨ s.encoding) := by
  cases h with
  | writeIbuf a b hop h ha => exact ⟨rfl, .inr ⟨a, b, hop⟩, .inl rfl, .inl rfl⟩
  | writeApay a b hop h ha => exact ⟨rfl, .inl rfl, .inr ⟨a, b, hop⟩, .inl rfl⟩
  | encHdr h => exact ⟨rfl, .inl rfl, .inl rfl, .inr (.inl h)⟩
  | encTp f h hf hc => exact ⟨rfl, .inl rfl, .inl rfl, .inr (.inr (.inl h))⟩
  | encFrame f b h hf he hc => exact ⟨rfl, .inl rfl, .inl rfl, .inr (.inr (.inr h))⟩
  | writeReg r v hi h =>
    obtain ⟨hparams, hibuf, hapay, hobuf⟩ := buffers_writeRegIdle s r v
    exact ⟨hparams, .inl hibuf, .inl hapay, .inl hobuf⟩
  | _ => exact ⟨rfl, .inl rfl, .inl rfl, .inl rfl⟩

/-- Settles O58: a reset keeps the parameters; for the other steps `buffers_of_change` names the writers. -/
theorem buffersChangeOnlyByTheirWriters : Obligations.BuffersChangeOnlyByTheirWriters := by
  intro s t h
  rcases step_cases h with ⟨rest, hhost, rfl⟩ | hchange
  · exact ⟨rfl, .inr (.inr ⟨rest, hhost⟩), .inr (.inr ⟨rest, hhost⟩), .inr (.inr ⟨rest, hhost⟩)⟩
  · obtain ⟨hparams, hibuf, hapay, hobuf⟩ := buffers_of_change hchange
    exact ⟨hparams,
      hibuf.imp_right fun ⟨a, b, hop⟩ => .inl ⟨a, b, List.head?_eq_some_iff.1 hop⟩,
      hapay.imp_right fun ⟨a, b, hop⟩ => .inl ⟨a, b, List.head?_eq_some_iff.1 hop⟩,
      hobuf.imp_right .inl⟩

/-! What a decode step reads of IBUF (20_memory.md R62). -/

/-- The state with another memory as IBUF. -/
def State.withIbuf (s : State) (m : Memory) : State := { s with ibuf := m }

/-- The outcome with another memory as IBUF of its next state, if it has one. -/
def outcomeWithIbuf (m : Memory) : Result → Result
  | .next t => .next (t.withIbuf m)
  | .fault r => .fault r
  | .refused r => .refused r

@[simp] theorem withIbuf_offset (s : State) (m : Memory) : (s.withIbuf m).offset = s.offset := rfl

@[simp] theorem withIbuf_latchL (s : State) (m : Memory) : (s.withIbuf m).latchL = s.latchL := rfl

@[simp] theorem withIbuf_latchX (s : State) (m : Memory) : (s.withIbuf m).latchX = s.latchX := rfl

@[simp] theorem withIbuf_latchS (s : State) (m : Memory) : (s.withIbuf m).latchS = s.latchS := rfl

@[simp] theorem withIbuf_rs (s : State) (m : Memory) : (s.withIbuf m).rs = s.rs := rfl

/-- Where a test does not read IBUF, each branch may be taken by itself. -/
theorem ite_outcomeWithIbuf {c : Prop} [Decidable c] {m : Memory} {x y x' y' : Result}
    (hx : c → x' = outcomeWithIbuf m x) (hy : ¬ c → y' = outcomeWithIbuf m y) :
    (if c then x' else y') = outcomeWithIbuf m (if c then x else y) := by
  split
  · next h => exact hx h
  · next h => exact hy h

/-- The memory holds the bytes of the valid input buffer, those of IBUF below L (42_data_packet_decode.md R155). -/
def State.SameInput (s : State) (m : Memory) : Prop :=
  ∀ a, a < s.latchL → (s.withIbuf m).ibufByte a = s.ibufByte a

/-- A read of IBUF that ends at or below L sees valid bytes alone. -/
theorem memRead_withIbuf {s : State} {m : Memory} (hm : s.SameInput m) {a n : Nat} (h : a + n ≤ s.latchL) :
    (s.withIbuf m).memRead a n = s.memRead a n := by
  have hslice : (s.withIbuf m).ibufSlice a n = s.ibufSlice a n :=
    List.map_congr_left fun k hk => hm k ((List.mem_range'_1.1 hk).2.trans_le h)
  simp only [State.memRead, hslice]
  rfl

/-- DP.MODE reads four bytes, and only where L is at least 4 (42_data_packet_decode.md R161). -/
theorem execDpMode_withIbuf {s : State} {m : Memory} (hm : s.SameInput m) :
    execDpMode (s.withIbuf m) = outcomeWithIbuf m (execDpMode s) := by
  unfold execDpMode
  refine ite_outcomeWithIbuf (fun _ => ite_outcomeWithIbuf (fun _ => rfl) fun hl => ?_) fun _ => rfl
  have hread : 0 + modeWordBytes ≤ s.latchL := by simpa using hl
  rw [memRead_withIbuf hm hread]
  cases s.memRead 0 modeWordBytes <;> rfl

/-- DP.DEC.TP reads from offset 4 up to L, which is at least 4 in its phase (42_data_packet_decode.md R162). -/
theorem execDpDecTp_withIbuf {s : State} {m : Memory} (hs : s.DecodeOk) (hm : s.SameInput m) :
    execDpDecTp (s.withIbuf m) = outcomeWithIbuf m (execDpDecTp s) := by
  unfold execDpDecTp
  refine ite_outcomeWithIbuf (fun hp => ?_) fun _ => rfl
  obtain ⟨-, hl, -, -⟩ := hs.dTp hp
  have hread : firstRecOffset + (s.latchL - firstRecOffset) ≤ s.latchL := (Nat.add_sub_cancel' hl).le
  rw [withIbuf_latchL, memRead_withIbuf hm hread]
  cases s.memRead firstRecOffset (s.latchL - firstRecOffset) <;> rfl

/-- DP.DEC.FR reads no byte of IBUF (42_data_packet_decode.md R163). -/
theorem execDpDecFr_withIbuf (s : State) (m : Memory) :
    execDpDecFr (s.withIbuf m) = outcomeWithIbuf m (execDpDecFr s) := by
  unfold execDpDecFr
  exact ite_outcomeWithIbuf (fun _ => ite_outcomeWithIbuf (fun _ => rfl) fun _ => rfl) fun _ => rfl

/-- A record that ends at or below L is decoded from valid bytes alone (42_data_packet_decode.md R165). -/
theorem decodeRecord_withIbuf {s : State} {m : Memory} (hm : s.SameInput m) (c : Codec)
    (h : s.offset + s.rs ≤ s.latchL) :
    decodeRecord c (s.withIbuf m) = outcomeWithIbuf m (decodeRecord c s) := by
  unfold decodeRecord
  rw [withIbuf_offset, withIbuf_rs, memRead_withIbuf hm h]
  cases s.memRead s.offset s.rs with
  | none => rfl
  | some region =>
    simp only [withIbuf_latchX, withIbuf_latchS]
    cases mfuDecode c region false s.latchX s.latchS <;> rfl

/-- DP.DEC.FR.STEP decodes a record that fits below L (42_data_packet_decode.md R164). -/
theorem execDpDecFrStep_withIbuf {s : State} {m : Memory} (hm : s.SameInput m) :
    execDpDecFrStep (s.withIbuf m) = outcomeWithIbuf m (execDpDecFrStep s) := by
  unfold execDpDecFrStep
  exact ite_outcomeWithIbuf (fun hp => decodeRecord_withIbuf hm s.codec (of_decide_eq_true hp.2)) fun _ => rfl

/-- DP.DEC.FR.STOP reads no byte of IBUF (42_data_packet_decode.md R166). -/
theorem execDpDecFrStop_withIbuf (s : State) (m : Memory) :
    execDpDecFrStop (s.withIbuf m) = outcomeWithIbuf m (execDpDecFrStop s) := by
  unfold execDpDecFrStop
  exact ite_outcomeWithIbuf (fun _ => rfl) fun _ => rfl

/-- A decode step from a sound state does the same, IBUF aside, with any memory that holds the valid input. -/
theorem exec_withIbuf {s : State} {m : Memory} (hs : s.DecodeOk) (hm : s.SameInput m) {i : Instr}
    (hi : i ∈ [Instr.dpMode, .dpDecTp, .dpDecFr, .dpDecFrStep, .dpDecFrStop]) :
    exec i (s.withIbuf m) = outcomeWithIbuf m (exec i s) := by
  simp only [List.mem_cons, List.not_mem_nil, or_false] at hi
  rcases hi with rfl | rfl | rfl | rfl | rfl
  · exact execDpMode_withIbuf hm
  · exact execDpDecTp_withIbuf hs hm
  · exact execDpDecFr_withIbuf s m
  · exact execDpDecFrStep_withIbuf hm
  · exact execDpDecFrStop_withIbuf s m

/-- Settles O59: `exec_withIbuf` where the step gives a next state. -/
theorem decodeReadsOnlyValidInput : Obligations.DecodeReadsOnlyValidInput := by
  intro s m hs hm i hi t h
  have hexec : exec i (s.withIbuf m) = outcomeWithIbuf m (exec i s) := exec_withIbuf hs.decode hm hi
  rwa [h] at hexec

end Sys2Proof.Machine
end

section
/-! PROOF. What the selecting wires select (30_encoding.md R101 to R104, R106; O5, O6, O7), and that a step runs
what is fetched (R252, R271; O4). -/

namespace Sys2Proof.Machine

/-! The command code (30_encoding.md R103). -/

/-- A command is selected by the low three bits of the written value (10_state.md R34). -/
theorem decode_command_of_mod {v code : Nat} (h : v % 8 = code) :
    decode (.command v) = decode (.command code) := by
  have hcode : BitVec.ofNat 3 v = BitVec.ofNat 3 code := by
    apply BitVec.eq_of_toNat_eq
    simp [← h]
  simp only [decode, hcode]

/-- Settles O5: each code stands alone in the low three bits. -/
theorem commandCodesDecode : Obligations.CommandCodesDecode := by
  intro v
  refine ⟨?_, ?_, ?_, ?_, ?_, ?_, ?_, ?_⟩
  all_goals exact fun h => (decode_command_of_mod h).trans rfl

/-! The minor-frame selectors (30_encoding.md R101, R102): bit 1 is TP, and bit 0 counts only where it is 0. -/

theorem decode_dsel_tp {v : BitVec 2} (htp : v.getLsbD 1 = true) (region : Bytes) (src : TsSrc) :
    decode (.dsel v region src) = .ok (.mfDecTp region) := by
  simp only [decode, decodeDsel, htp, if_true]

theorem decode_dsel_extract {v : BitVec 2} (htp : v.getLsbD 1 = false) (hx : v.getLsbD 0 = true)
    (region : Bytes) (src : TsSrc) : decode (.dsel v region src) = .ok (.mfDecFrs region src) := by
  simp only [decode, decodeDsel, htp, hx, Bool.false_eq_true, if_false, if_true]

theorem decode_dsel_plain {v : BitVec 2} (htp : v.getLsbD 1 = false) (hx : v.getLsbD 0 = false)
    (region : Bytes) (src : TsSrc) : decode (.dsel v region src) = .ok (.mfDecFr region src) := by
  simp only [decode, decodeDsel, htp, hx, Bool.false_eq_true, if_false]

theorem decode_esel_tp {v : BitVec 2} (htp : v.getLsbD 1 = true) (f : FrameWires) (src : TsSrc) :
    decode (.esel v f src) = .ok (.mfEncTp f.payload) := by
  simp only [decode, decodeEsel, htp, if_true]

theorem decode_esel_sync {v : BitVec 2} (htp : v.getLsbD 1 = false) (hss : v.getLsbD 0 = true)
    (f : FrameWires) (src : TsSrc) :
    decode (.esel v f src) = .ok (.mfEncFrs f.ts f.hdr f.sync f.sfid f.payload src) := by
  simp only [decode, decodeEsel, htp, hss, Bool.false_eq_true, if_false, if_true]

theorem decode_esel_plain {v : BitVec 2} (htp : v.getLsbD 1 = false) (hss : v.getLsbD 0 = false)
    (f : FrameWires) (src : TsSrc) :
    decode (.esel v f src) = .ok (.mfEncFr f.ts f.hdr f.payload src) := by
  simp only [decode, decodeEsel, htp, hss, Bool.false_eq_true, if_false]

/-! The parts of a framed decode (30_encoding.md R104). -/

/-- Both framed decodes begin with the timestamp. -/
theorem decode_part_zero (x : Bool) (region : Bytes) (src : TsSrc) :
    decode (.part x 0 region src) = .ok (.fxTs region src) := by
  cases x <;> rfl

/-- In both framed decodes the header word comes second. -/
theorem decode_part_one (x : Bool) (region : Bytes) (src : TsSrc) :
    decode (.part x 1 region src) = .ok (.fxHdr region) := by
  cases x <;> rfl

/-- Settles O6: DSEL and ESEL by their two bits, the parts by their place, the small steps by PHASE. -/
theorem selectorsDecode : Obligations.SelectorsDecode := by
  refine ⟨fun region src => ?_, fun f src => ?_, fun more => ⟨rfl, rfl, rfl, rfl, rfl⟩, rfl, rfl, rfl, rfl⟩
  · exact ⟨decode_dsel_tp rfl region src, decode_dsel_tp rfl region src, decode_dsel_plain rfl rfl region src,
      decode_dsel_extract rfl rfl region src,
      decode_part_zero false region src, decode_part_one false region src, rfl,
      decode_part_zero true region src, decode_part_one true region src, rfl, rfl⟩
  · exact ⟨decode_esel_tp rfl f src, decode_esel_plain rfl rfl f src, decode_esel_sync rfl rfl f src⟩

/-! The encoder (30_encoding.md R101 to R104, R106). -/

/-- FX.PAY is part 2 without extraction and part 3 with it, by where the payload starts
(40_minor_frame_decode.md R124). -/
theorem decode_encode_fxPay (region : Bytes) (start : PayStart) :
    decode (encode (.fxPay region start)) = .ok (.fxPay region start) := by
  cases start <;> rfl

/-- Settles O7: FX.PAY has its wires by its start; every other operation's wires are one row of `encode`. -/
theorem decodeOfEncode : Obligations.DecodeOfEncode := by
  intro i
  cases i with
  | fxPay region start => exact decode_encode_fxPay region start
  | _ => rfl

/-! What is fetched (30_encoding.md R103, R104, R106; 70_reset_and_hazards.md R252). -/

/-- The state whose host actions are these. -/
def State.withHost (s : State) (rest : List HostOp) : State := { s with host := rest }

@[simp] theorem withHost_phase (s : State) (rest : List HostOp) : (s.withHost rest).phase = s.phase := rfl

/-- Whether an item is left does not depend on the host's coming actions. -/
@[simp] theorem withHost_more (s : State) (rest : List HostOp) : (s.withHost rest).more = s.more := rfl

theorem fetchStep_of_idle {s : State} (h : s.phase = .idle) : s.fetchStep = .idle s := if_pos h

theorem fetchStep_of_running {s : State} (h : s.phase ≠ .idle) :
    s.fetchStep = .run (.step s.phase s.more) s := if_neg h

section
variable {s : State} {rest : List HostOp}

theorem fetch_nil (h : s.host = []) : fetch s = s.fetchStep := by
  simp only [fetch, h]

theorem fetch_tick (h : s.host = .tick :: rest) : fetch s = (s.withHost rest).fetchStep := by
  simp only [fetch, h, State.withHost]

theorem fetch_command {value : Nat} (h : s.host = .write 3 value :: rest) :
    fetch s = .run (.command value) (s.withHost rest) := by
  simp only [fetch, h, if_true, State.withHost]

theorem fetch_write {reg value : Nat} (h : s.host = .write reg value :: rest) (hreg : reg ≠ 3) :
    fetch s = .write reg value (s.withHost rest) := by
  simp only [fetch, h, if_neg hreg, State.withHost]

theorem fetch_read {reg : Nat} (h : s.host = .read reg :: rest) : fetch s = .read reg (s.withHost rest) := by
  simp only [fetch, h, State.withHost]

theorem fetch_writeIbuf {a : Nat} {b : Byte} (h : s.host = .writeIbuf a b :: rest) :
    fetch s = .writeIbuf a b (s.withHost rest) := by
  simp only [fetch, h, State.withHost]

theorem fetch_writeApay {a : Nat} {b : Byte} (h : s.host = .writeApay a b :: rest) :
    fetch s = .writeApay a b (s.withHost rest) := by
  simp only [fetch, h, State.withHost]

theorem fetch_rdFrame {i : Nat} (h : s.host = .rdFrame i :: rest) :
    fetch s = .run (.portFrame i) (s.withHost rest) := by
  simp only [fetch, h, State.withHost]

theorem fetch_rdPay {i k : Nat} (h : s.host = .rdPay i k :: rest) :
    fetch s = .run (.portPay i k) (s.withHost rest) := by
  simp only [fetch, h, State.withHost]

theorem fetch_rdOut {k : Nat} (h : s.host = .rdOut k :: rest) :
    fetch s = .run (.portOut k) (s.withHost rest) := by
  simp only [fetch, h, State.withHost]

/-- While a command runs, a tick gives the sequencer its turn. -/
theorem fetch_tick_of_running (h : s.host = .tick :: rest) (hp : s.phase ≠ .idle) :
    fetch s = .run (.step s.phase s.more) (s.withHost rest) := by
  rw [fetch_tick h, fetchStep_of_running (by simpa using hp), withHost_phase, withHost_more]

/-- With no running command, a tick leaves nothing to run (70_reset_and_hazards.md R252). -/
theorem fetch_tick_of_idle (h : s.host = .tick :: rest) (hp : s.phase = .idle) :
    fetch s = .idle (s.withHost rest) := by
  rw [fetch_tick h, fetchStep_of_idle (by simpa using hp)]

end

/-! A step does what is fetched (70_reset_and_hazards.md R271). -/

section
variable {s t : State}

theorem step_of_fetch_run {sel : Selector} {i : Instr} (hf : fetch s = .run sel t) (hd : decode sel = .ok i) :
    step s = exec i t := by
  simp only [step, hf, runSelected, hd]

theorem step_of_fetch_idle (hf : fetch s = .idle t) : step s = .next t := by
  simp only [step, hf]

theorem step_of_fetch_write {reg value : Nat} (hf : fetch s = .write reg value t) :
    step s = t.hostWrite reg value := by
  simp only [step, hf]

theorem step_of_fetch_read {reg : Nat} (hf : fetch s = .read reg t) : step s = t.hostRead reg := by
  simp only [step, hf]

theorem step_of_fetch_writeIbuf {a : Nat} {b : Byte} (hf : fetch s = .writeIbuf a b t) :
    step s = .next (t.writeIbuf a b) := by
  simp only [step, hf]

theorem step_of_fetch_writeApay {a : Nat} {b : Byte} (hf : fetch s = .writeApay a b t) :
    step s = .next (t.writeApay a b) := by
  simp only [step, hf]

end

/-- Settles O4: one fetch lemma for each host action, and the step that goes with it. -/
theorem stepRunsDecodedInstruction : Obligations.StepRunsDecodedInstruction :=
  ⟨fun _ _ _ _ hf hd => step_of_fetch_run hf hd,
    fun _ _ _ h => fetch_command h,
    fun _ _ _ h => fetch_rdFrame h,
    fun _ _ _ _ h => fetch_rdPay h,
    fun _ _ _ h => fetch_rdOut h,
    fun _ h hp => (fetch_nil h).trans (fetchStep_of_running hp),
    fun _ _ h hp => fetch_tick_of_running h hp,
    fun _ h hp => step_of_fetch_idle ((fetch_nil h).trans (fetchStep_of_idle hp)),
    fun _ _ h hp => step_of_fetch_idle (fetch_tick_of_idle h hp),
    fun _ _ _ _ h hreg => step_of_fetch_write (fetch_write h hreg),
    fun _ _ _ h => step_of_fetch_read (fetch_read h),
    fun _ _ _ _ h => step_of_fetch_writeIbuf (fetch_writeIbuf h),
    fun _ _ _ _ h => step_of_fetch_writeApay (fetch_writeApay h)⟩

end Sys2Proof.Machine
end

section
/-! PROOF. The field operations and the minor-frame decodes (40_minor_frame_decode.md R120 to R130; O16 to O22, O42,
O43): first what each function gives on the bytes it reads, then what the operation answers. -/

namespace Sys2Proof.Machine

/-! The codec of a state on the first eight bytes (40_minor_frame_decode.md R120). -/

section
variable {s : State} {region : Bytes} {x : Bool} {src : TsSrc}

theorem codec_dec_accepted {b : Bytes} {v : BitVec s.params.tsW}
    (hd : Config.tsDec s.params.tsW src b = some v) : s.codec.dec src b = some ⟨v.toNat⟩ :=
  congrArg (Option.map TS.ofBits) hd

theorem codec_dec_rejected {b : Bytes} (hd : Config.tsDec s.params.tsW src b = none) :
    s.codec.dec src b = none :=
  congrArg (Option.map TS.ofBits) hd

theorem fxTs_accepted {v : BitVec s.params.tsW} (hl : 8 ≤ region.length)
    (hd : Config.tsDec s.params.tsW src (region.take 8) = some v) :
    fxTs s.codec region src = .ok ⟨v.toNat⟩ := by
  rw [fxTs_eq _ _ _ hl, codec_dec_accepted hd]

theorem fxTs_rejected (hl : 8 ≤ region.length)
    (hd : Config.tsDec s.params.tsW src (region.take 8) = none) :
    fxTs s.codec region src = .error .malformedBuffer := by
  rw [fxTs_eq _ _ _ hl, codec_dec_rejected hd]

/-- Both framed decodes of a region whose timestamp the codec accepts (R127, R128). -/
theorem mfuDecode_accepted {v : BitVec s.params.tsW} (hl : headerBytes x ≤ region.length)
    (hd : Config.tsDec s.params.tsW src (region.take 8) = some v) :
    mfuDecode s.codec region false x src = .ok (.fr (some ⟨v.toNat⟩) (le16 (slice region 8 10))
      (ssField x region) (region.drop (headerBytes x))) := by
  rw [mfuDecode_framed _ _ _ _ hl, codec_dec_accepted hd]

/-- Both framed decodes of a region whose timestamp the codec rejects (R127, R128). -/
theorem mfuDecode_rejected (hl : headerBytes x ≤ region.length)
    (hd : Config.tsDec s.params.tsW src (region.take 8) = none) :
    mfuDecode s.codec region false x src = .error .malformedBuffer := by
  rw [mfuDecode_framed _ _ _ _ hl, codec_dec_rejected hd]

end

/-! The header word and the sync group, byte by byte (40_minor_frame_decode.md R121 to R123). -/

theorem le16_pair_eq_ofNat (x y : Byte) : le16 [x, y] = BitVec.ofNat 16 (x.toNat + 256 * y.toNat) := by
  simp [le16, leNat]

/-- The last byte of a field that a region has shows that the region is long enough for the field. -/
theorem lt_length_of_getElem? {region : Bytes} {i : Nat} {b : Byte} (h : region[i]? = some b) :
    i < region.length :=
  (List.getElem?_eq_some_iff.1 h).1

/-- A little-endian 16-bit value is its second byte above its first. -/
theorem le16_slice {region : Bytes} {i : Nat} {x y : Byte} (hx : region[i]? = some x)
    (hy : region[i + 1]? = some y) : le16 (slice region i (i + 2)) = y ++ x := by
  rw [slice_two region i x y hx hy, le16_pair]

theorem fxHdr_short {region : Bytes} (h : region.length < 10) : fxHdr region = .error .malformedBuffer :=
  if_pos h

theorem fxSs_short {region : Bytes} (h : region.length < 16) : fxSs region = .error .malformedBuffer :=
  if_pos h

/-- The sync assembly of four bytes puts the second above the first and both above the fourth and the third
(R123). -/
theorem syncWord_bytes (b10 b11 b12 b13 : Byte) :
    syncWord (b11 ++ b10) (b13 ++ b12) = b11 ++ b10 ++ b13 ++ b12 := by
  rw [syncWord_eq_append, BitVec.append_assoc (x₁ := b11 ++ b10), BitVec.cast_eq]

section
variable {region : Bytes} {b8 b9 b10 b11 b12 b13 b14 b15 : Byte}

theorem fxHdr_bytes (h8 : region[8]? = some b8) (h9 : region[9]? = some b9) :
    fxHdr region = .ok (BitVec.ofNat 16 (b8.toNat + 256 * b9.toNat)) := by
  rw [fxHdr_eq region (lt_length_of_getElem? h9), slice_two region 8 b8 b9 h8 h9, le16_pair_eq_ofNat]

/-- The sync group of a region with bytes 10 to 15 (R122, R123). -/
theorem ssField_bytes (h10 : region[10]? = some b10) (h11 : region[11]? = some b11)
    (h12 : region[12]? = some b12) (h13 : region[13]? = some b13)
    (h14 : region[14]? = some b14) (h15 : region[15]? = some b15) :
    ssField true region = some (b11 ++ b10 ++ b13 ++ b12, b15 ++ b14) := by
  rw [ssField, if_pos rfl, le16_slice h10 h11, le16_slice h12 h13, le16_slice h14 h15, syncWord_bytes]

/-- On a region that is long enough FX.SS gives the sync group that the framed decode with extraction gives
(R122). -/
theorem fxSs_of_ssField {g : U32 × U16} (hl : 16 ≤ region.length) (hg : ssField true region = some g) :
    fxSs region = .ok g :=
  (fxSs_eq region hl).trans (congrArg Except.ok (Option.some.inj hg))

end

/-! What the operations answer (40_minor_frame_decode.md R120 to R128; log entries 9 and 10). -/

section
variable {s : State} {region : Bytes} {src : TsSrc}

theorem exec_fxTs_ok {t : TS} (h : fxTs s.codec region src = .ok t) :
    exec (.fxTs region src) s = .next (s.showAnswer (.ts t)) := by
  simp only [exec, execFxTs, h]

theorem exec_fxTs_error {k : ErrKind} (h : fxTs s.codec region src = .error k) :
    exec (.fxTs region src) s = .next (s.showAnswer (.fail k)) := by
  simp only [exec, execFxTs, h]

theorem exec_fxHdr_ok {v : U16} (h : fxHdr region = .ok v) :
    exec (.fxHdr region) s = .next (s.showAnswer (.hdr v)) := by
  simp only [exec, execFxHdr, h]

theorem exec_fxHdr_error {k : ErrKind} (h : fxHdr region = .error k) :
    exec (.fxHdr region) s = .next (s.showAnswer (.fail k)) := by
  simp only [exec, execFxHdr, h]

theorem exec_fxSs_ok {w : U32} {f : U16} (h : fxSs region = .ok (w, f)) :
    exec (.fxSs region) s = .next (s.showAnswer (.ss w f)) := by
  simp only [exec, execFxSs, h]

theorem exec_fxSs_error {k : ErrKind} (h : fxSs region = .error k) :
    exec (.fxSs region) s = .next (s.showAnswer (.fail k)) := by
  simp only [exec, execFxSs, h]

theorem exec_fxPay (start : PayStart) :
    exec (.fxPay region start) s = .next (s.showAnswer (.payload (fxPay region start))) := rfl

theorem exec_mfDecTp : exec (.mfDecTp region) s = .next (s.showAnswer (.frame (mfDecTp region))) := rfl

/-- MF.DEC.FR is the framed decode without extraction (R125). -/
theorem exec_mfDecFr {r : Except ErrKind MinorFrame} (h : mfuDecode s.codec region false false src = r) :
    exec (.mfDecFr region src) s = .next (s.showAnswer (frameAnswer r)) :=
  h ▸ rfl

/-- MF.DEC.FRS is the framed decode with extraction (R125). -/
theorem exec_mfDecFrs {r : Except ErrKind MinorFrame} (h : mfuDecode s.codec region false true src = r) :
    exec (.mfDecFrs region src) s = .next (s.showAnswer (frameAnswer r)) :=
  h ▸ rfl

end

/-- Settles O16: the codec accepts or rejects the first eight bytes, or there are fewer. -/
theorem timestampField : Obligations.TimestampField := by
  refine fun region src s => ⟨fun hl => ?_, fun hl => exec_fxTs_error (fxTs_short _ _ _ hl)⟩
  cases hd : Config.tsDec s.params.tsW src (region.take 8) with
  | none => exact exec_fxTs_error (fxTs_rejected hl hd)
  | some v => exact exec_fxTs_ok (fxTs_accepted hl hd)

/-- Settles O17: bytes 8 and 9 read little-endian, or a region without byte 9. -/
theorem headerField : Obligations.HeaderField := fun _ _ =>
  ⟨fun _ _ h8 h9 => exec_fxHdr_ok (fxHdr_bytes h8 h9), fun hl => exec_fxHdr_error (fxHdr_short hl)⟩

/-- Settles O18: bytes 10 to 15 read as three little-endian units, or a region without byte 15. -/
theorem syncField : Obligations.SyncField := fun _ _ =>
  ⟨fun _ _ _ _ _ _ h10 h11 h12 h13 h14 h15 =>
      exec_fxSs_ok (fxSs_of_ssField (lt_length_of_getElem? h15) (ssField_bytes h10 h11 h12 h13 h14 h15)),
    fun hl => exec_fxSs_error (fxSs_short hl)⟩

/-- Settles O19: the payload is the region from byte `c` on. -/
theorem payloadField : Obligations.PayloadField := fun region start _ =>
  ⟨fxPay region start, exec_fxPay start, length_sliceFrom region start.bytes, fun _ _ => List.getElem?_drop⟩

/-- Settles O20: MF.DEC.TP has one outcome. -/
theorem throughputRecordDecode : Obligations.ThroughputRecordDecode := fun _ _ => exec_mfDecTp

/-- Settles O21: the framed decode without extraction, by what the codec says of the first eight bytes. -/
theorem framedRecordDecode : Obligations.FramedRecordDecode := by
  refine fun region src s => ⟨fun b8 b9 h8 h9 => ?_, fun hl => exec_mfDecFr (mfuDecode_short _ _ false _ hl)⟩
  have hl : headerBytes false ≤ region.length := lt_length_of_getElem? h9
  rw [← le16_slice h8 h9]
  cases hd : Config.tsDec s.params.tsW src (region.take 8) with
  | none => exact exec_mfDecFr (mfuDecode_rejected hl hd)
  | some v => exact exec_mfDecFr (mfuDecode_accepted hl hd)

/-- Settles O22: the framed decode with extraction, by what the codec says of the first eight bytes. -/
theorem framedRecordDecodeWithSync : Obligations.FramedRecordDecodeWithSync := by
  refine fun region src s => ⟨fun b8 b9 b10 b11 b12 b13 b14 b15 h8 h9 h10 h11 h12 h13 h14 h15 => ?_,
    fun hl => exec_mfDecFrs (mfuDecode_short _ _ true _ hl)⟩
  have hl : headerBytes true ≤ region.length := lt_length_of_getElem? h15
  rw [← le16_slice h8 h9, ← ssField_bytes h10 h11 h12 h13 h14 h15]
  cases hd : Config.tsDec s.params.tsW src (region.take 8) with
  | none => exact exec_mfDecFrs (mfuDecode_rejected hl hd)
  | some v => exact exec_mfDecFrs (mfuDecode_accepted hl hd)

/-! Laws of the framed decodes (40_minor_frame_decode.md R129, R130). -/

/-- Settles O42: the frame of a successful decode is known field by field (`mfuDecode_ok`). -/
theorem decodedPayloadLength : Obligations.DecodedPayloadLength := by
  intro c region x src f h
  obtain ⟨hl, t, -, rfl⟩ := mfuDecode_ok h
  have hss : (ssField x region).isSome = x := by cases x <;> rfl
  exact ⟨List.length_drop, hl, rfl, rfl, hss⟩

/-- A slice of the rest of a sequence is a slice of the sequence further on. -/
theorem slice_drop (b : Bytes) (n i j : Nat) : slice (b.drop n) i j = slice b (n + i) (n + j) := by
  simp only [slice, List.take_drop, List.drop_drop]

/-- The sync group is read from the first six bytes of the payload without extraction (R130). -/
theorem ssField_eq_payload (region : Bytes) :
    ssField true region = some
      (syncWord (le16 (slice (region.drop 10) 0 2)) (le16 (slice (region.drop 10) 2 4)),
        le16 (slice (region.drop 10) 4 6)) := by
  simp only [slice_drop, ssField, if_true]

/-- Settles O43: both decodes ask the codec of the same eight bytes and differ in the sync group and in where the
payload starts. -/
theorem extractionTakesSixBytes : Obligations.ExtractionTakesSixBytes := by
  intro c region src f h hl
  obtain ⟨-, t, ht, rfl⟩ := mfuDecode_ok (x := false) h
  have hg : mfuDecode c region false true src =
      .ok (.fr (some t) (le16 (slice region 8 10)) (ssField true region) (region.drop 16)) := by
    rw [mfuDecode_framed c region true src hl, ht]
    rfl
  have hpay : region.drop 16 = (region.drop 10).drop 6 := by rw [List.drop_drop]
  exact ⟨_, hg, rfl, rfl, hpay, ssField_eq_payload region⟩

end Sys2Proof.Machine
end

section
/-! PROOF. The minor-frame encodes and their laws (41_minor_frame_encode.md R141 to R150; O23, O44 to O46): first the
two byte orders on one field, then what the decode gives on encoded bytes and the encode on a decoded record. -/

namespace Sys2Proof.Machine

/-! Where a field lies in a record (20_memory.md R63, R64). -/

/-- The slice at a field of a sequence is the field. -/
theorem slice_append_middle {a b d : Bytes} {i j : Nat} (hi : a.length = i) (hj : i + b.length = j) :
    slice (a ++ b ++ d) i j = b := by
  subst hi hj
  rw [slice, List.take_left' List.length_append, List.drop_left]

/-- The bytes that a codec gives are eight (60_exceptions.md R240). -/
theorem length_enc (c : Codec) (src : TsSrc) (t : TS) : (c.enc src t).toList.length = 8 :=
  Vector.length_toList

/-! Halves of a value, and a unit equal to itself byte-swapped (00_scope.md R12). -/

theorem append_eq_iff {m n : Nat} (hi : BitVec m) (lo : BitVec n) (v : BitVec (m + n)) :
    hi ++ lo = v ↔ hi = v.extractLsb' n m ∧ lo = v.extractLsb' 0 n := by
  constructor
  · rintro rfl
    exact ⟨BitVec.extractLsb'_append_eq_left.symm, BitVec.extractLsb'_append_eq_right.symm⟩
  · rintro ⟨rfl, rfl⟩
    exact extract_append v

theorem bswap16_eq_self_iff (v : U16) : bswap16 v = v ↔ v.extractLsb' 8 8 = v.extractLsb' 0 8 := by
  rw [bswap16, append_eq_iff (m := 8) (n := 8)]
  exact ⟨And.right, fun h => ⟨h.symm, h⟩⟩

/-- A part of a part of a value is a part of the value. -/
theorem extractLsb'_part {n a b len len' : Nat} (v : BitVec n) (h : b + len ≤ len') :
    (v.extractLsb' a len').extractLsb' b len = v.extractLsb' (a + b) len := by
  apply BitVec.eq_of_getLsbD_eq
  intro i hi
  simp only [BitVec.getLsbD_extractLsb', decide_eq_true hi, decide_eq_true (show b + i < len' by omega),
    Bool.true_and, Nat.add_assoc]

theorem extract_syncHigh (w : U32) {b : Nat} (h : b + 8 ≤ 16) :
    (syncHigh w).extractLsb' b 8 = w.extractLsb' (16 + b) 8 :=
  extractLsb'_part w h

theorem extract_syncLow (w : U32) {b : Nat} (h : b + 8 ≤ 16) :
    (syncLow w).extractLsb' b 8 = w.extractLsb' b 8 :=
  BitVec.extractLsb'_extractLsb'_of_le h

/-- The big-endian bytes of a sync word are those of its upper and then of its lower unit (R143). -/
theorem be32Enc_eq_append (w : U32) : be32Enc w = be16Enc (syncHigh w) ++ be16Enc (syncLow w) := by
  simp [be32Enc, be16Enc, extract_syncHigh, extract_syncLow]

/-- The sync word of four bytes, big-endian, is those bytes with each pair swapped (R150). -/
theorem be32Enc_bytes (b10 b11 b12 b13 : Byte) :
    be32Enc (b11 ++ b10 ++ b13 ++ b12) = [b11, b10, b13, b12] := by
  have h : le32Enc (b11 ++ b10 ++ b13 ++ b12) = [b12, b13, b10, b11] := by
    rw [← le32_quad, le32Enc_le32]
  exact congrArg List.reverse h

theorem be16Enc_bytes (b14 b15 : Byte) : be16Enc (b15 ++ b14) = [b15, b14] := by
  rw [← le16_pair, be16Enc_le16]

/-! What the encodes answer (R141 to R143; log entries 9 and 10). -/

section
variable {s : State} {ts : Option TS} {hdr sfid : U16} {sync : U32} {payload : Bytes} {src : TsSrc}
  {r : Except ErrKind Bytes}

theorem exec_mfEncTp : exec (.mfEncTp payload) s = .next (s.showAnswer (.bytes payload)) := rfl

theorem exec_mfEncFr (h : mfEncFr s.codec ts hdr payload src = r) :
    exec (.mfEncFr ts hdr payload src) s = .next (s.showAnswer (bytesAnswer r)) :=
  h ▸ rfl

theorem exec_mfEncFrs (h : mfEncFrs s.codec ts hdr sync sfid payload src = r) :
    exec (.mfEncFrs ts hdr sync sfid payload src) s = .next (s.showAnswer (bytesAnswer r)) :=
  h ▸ rfl

end

/-- Settles O23: the framed encodes by whether the frame has a timestamp. -/
theorem minorFrameEncodes : Obligations.MinorFrameEncodes := fun _ _ _ _ _ _ =>
  ⟨exec_mfEncTp, fun _ => exec_mfEncFr rfl, fun _ => exec_mfEncFrs rfl, exec_mfEncFr rfl, exec_mfEncFrs rfl⟩

/-! The decode of an encoded frame (R145, R148). -/

/-- The sync group as it comes back: each 16-bit unit byte-swapped (R148). -/
def swappedSs : Option (U32 × U16) → Option (U32 × U16)
  | none => none
  | some (w, f) => some (bswap16 (syncHigh w) ++ bswap16 (syncLow w), bswap16 f)

/-- The sync group was written big-endian and is read little-endian (90_conflicts.md C4). -/
theorem ssField_encoded {pre pay : Bytes} (hpre : pre.length = 10) (ss : Option (U32 × U16)) :
    ssField ss.isSome (pre ++ ssBytesOf ss ++ pay) = swappedSs ss := by
  rcases ss with _ | ⟨w, f⟩
  · rfl
  · have hsplit : pre ++ ssBytesOf (some (w, f)) ++ pay
        = pre ++ be16Enc (syncHigh w) ++ be16Enc (syncLow w) ++ be16Enc f ++ pay := by
      simp [ssBytesOf, be32Enc_eq_append]
    have h10 : slice (pre ++ ssBytesOf (some (w, f)) ++ pay) 10 12 = be16Enc (syncHigh w) := by
      rw [hsplit, List.append_assoc _ (be16Enc f), List.append_assoc _ (be16Enc (syncLow w))]
      exact slice_append_middle hpre rfl
    have h12 : slice (pre ++ ssBytesOf (some (w, f)) ++ pay) 12 14 = be16Enc (syncLow w) := by
      rw [hsplit, List.append_assoc _ (be16Enc f)]
      exact slice_append_middle (by simp [hpre]) rfl
    have h14 : slice (pre ++ ssBytesOf (some (w, f)) ++ pay) 14 16 = be16Enc f := by
      rw [hsplit]
      exact slice_append_middle (by simp [hpre]) rfl
    simp only [ssField, Option.isSome_some, if_true, h10, h12, h14, le16_be16Enc, syncWord_eq_append,
      swappedSs]

/-- Decoding an encoded framed frame gives its timestamp, header and payload, and its sync group byte-swapped
(R145, R148), where the codec decodes what it encoded (60_exceptions.md R241). -/
theorem mfuDecode_encoded {c : Codec} {t : TS} {src : TsSrc} (hc : c.dec src (c.enc src t).toList = some t)
    (hdr : U16) (ss : Option (U32 × U16)) (pay : Bytes) :
    mfuDecode c ((c.enc src t).toList ++ le16Enc hdr ++ ssBytesOf ss ++ pay) false ss.isSome src
      = .ok (.fr (some t) hdr (swappedSs ss) pay) := by
  have hts := length_enc c src t
  have hpre : ((c.enc src t).toList ++ le16Enc hdr).length = 10 := by simp
  have hhead : ((c.enc src t).toList ++ le16Enc hdr ++ ssBytesOf ss).length = headerBytes ss.isSome := by
    rcases ss with _ | ⟨w, f⟩ <;> simp [ssBytesOf, headerBytes]
  have hhdr : slice ((c.enc src t).toList ++ le16Enc hdr ++ ssBytesOf ss ++ pay) 8 10 = le16Enc hdr := by
    rw [List.append_assoc _ (ssBytesOf ss)]
    exact slice_append_middle hts rfl
  have htake : ((c.enc src t).toList ++ le16Enc hdr ++ ssBytesOf ss ++ pay).take 8 = (c.enc src t).toList := by
    rw [List.append_assoc, List.append_assoc, List.take_left' hts]
  rw [mfuDecode_framed _ _ _ _ (by rw [List.length_append, hhead]; omega), htake, hc, hhdr, le16_le16Enc,
    ssField_encoded hpre, List.drop_left' hhead]

/-- Settles O44: a frame without sync group has nothing to swap. -/
theorem framedFrameRoundTrip : Obligations.FramedFrameRoundTrip := by
  intro c t hdr pay src hc
  have henc : mfuEncode c (.fr (some t) hdr none pay) src = .ok _ := mfuEncode_framed c (some t) hdr none pay src
  exact ⟨_, henc, mfuEncode_length henc, mfuDecode_encoded hc hdr none pay⟩

/-- A sync word is its own byte-swapped form iff each of its two units is. -/
theorem bswap_sync_eq_self_iff (w : U32) :
    bswap16 (syncHigh w) ++ bswap16 (syncLow w) = w ↔
      w.extractLsb' 24 8 = w.extractLsb' 16 8 ∧ w.extractLsb' 8 8 = w.extractLsb' 0 8 := by
  rw [append_eq_iff (m := 16) (n := 16)]
  refine and_congr ((bswap16_eq_self_iff _).trans ?_) ((bswap16_eq_self_iff _).trans ?_)
  · exact iff_of_eq (congrArg₂ Eq (extract_syncHigh w (by decide)) (extract_syncHigh w (by decide)))
  · exact iff_of_eq (congrArg₂ Eq (extract_syncLow w (by decide)) (extract_syncLow w (by decide)))

/-- Settles O45: the general decode of encoded bytes with a sync group, and which units are their own swap. -/
theorem syncGroupComesBackSwapped : Obligations.SyncGroupComesBackSwapped := by
  intro c t hdr sf w pay src hc
  have henc : mfuEncode c (.fr (some t) hdr (some (w, sf)) pay) src = .ok _ :=
    mfuEncode_framed c (some t) hdr (some (w, sf)) pay src
  have hdec := mfuDecode_encoded hc hdr (some (w, sf)) pay
  have hfix := and_congr (bswap_sync_eq_self_iff w) (bswap16_eq_self_iff sf)
  exact ⟨_, henc, mfuEncode_length henc, hdec, hfix.trans and_assoc⟩

/-! The encode of a decoded record (R147, R150). -/

/-- What follows the timestamp in a re-encoded record: the header, sync group and payload that the decode read. -/
def reencodedTail (x : Bool) (region : Bytes) : Bytes :=
  le16Enc (le16 (slice region 8 10)) ++ ssBytesOf (ssField x region) ++ region.drop (headerBytes x)

theorem isSome_ssField (x : Bool) (region : Bytes) : (ssField x region).isSome = x := by
  cases x <;> rfl

/-- Encoding the frame that a framed decode gives (R150). -/
theorem mfuEncode_decoded (c : Codec) (region : Bytes) (x : Bool) (src : TsSrc) (t : TS) :
    mfuEncode c (.fr (some t) (le16 (slice region 8 10)) (ssField x region) (region.drop (headerBytes x))) src
      = .ok ((c.enc src t).toList ++ reencodedTail x region) := by
  simp only [mfuEncode_framed, reencodedTail, List.append_assoc]

/-- Without extraction every byte from 8 on comes out as it was (R147). -/
theorem reencodedTail_plain {region : Bytes} (h : headerBytes false ≤ region.length) :
    reencodedTail false region = region.drop 8 := by
  have hl : 10 ≤ region.length := h
  rw [reencodedTail, slice_two region 8 _ _ (List.getElem?_eq_getElem (by omega))
    (List.getElem?_eq_getElem (by omega)), le16Enc_le16, List.drop_eq_getElem_cons (i := 8) (by omega),
    List.drop_eq_getElem_cons (i := 9) (by omega)]
  rfl

/-- With extraction bytes 10 to 15 come out pairwise swapped (R150). -/
theorem reencodedTail_sync {region : Bytes} (h : 16 ≤ region.length) :
    reencodedTail true region = [region[8], region[9], region[11], region[10], region[13], region[12],
      region[15], region[14]] ++ region.drop 16 := by
  have hb (i : Nat) (hi : i < 16) : region[i]? = some region[i] := List.getElem?_eq_getElem _
  rw [reencodedTail, slice_two region 8 _ _ (hb 8 (by decide)) (hb 9 (by decide)), le16Enc_le16,
    ssField_bytes (hb 10 (by decide)) (hb 11 (by decide)) (hb 12 (by decide)) (hb 13 (by decide))
      (hb 14 (by decide)) (hb 15 (by decide)), ssBytesOf, be32Enc_bytes, be16Enc_bytes]
  rfl

/-- The bytes that a re-encoding keeps (R147, R150). -/
theorem getElem?_reencodedTail_kept {region : Bytes} {x : Bool} (h : headerBytes x ≤ region.length) {j : Nat}
    (hj : x = false ∨ j < 2 ∨ 8 ≤ j) : (reencodedTail x region)[j]? = region[8 + j]? := by
  cases x with
  | false => rw [reencodedTail_plain h, List.getElem?_drop]
  | true =>
    have hl : 16 ≤ region.length := h
    rw [reencodedTail_sync hl]
    rcases hj with hx | hhdr | hpay
    · cases hx
    · obtain rfl | rfl : j = 0 ∨ j = 1 := by omega
      · simp
      · simp
    · obtain ⟨i, rfl⟩ := Nat.exists_eq_add_of_le hpay
      rw [List.getElem?_append_right hpay, List.getElem?_drop, ← Nat.add_assoc]
      exact congrArg (fun k => region[16 + k]?) (Nat.add_sub_cancel_left 8 i)

/-- Settles O46: the decode gives `mfuDecode_ok`'s frame, whose encoding is the codec's eight bytes and then
`reencodedTail`. -/
theorem reencodedRecord : Obligations.ReencodedRecord := by
  intro c region src x f h
  obtain ⟨hl, t, ht, rfl⟩ := mfuDecode_ok h
  have henc := mfuEncode_decoded c region x src t
  have hts := length_enc c src t
  have htail (j : Nat) : ((c.enc src t).toList ++ reencodedTail x region)[8 + j]? = (reencodedTail x region)[j]? := by
    rw [List.getElem?_append_right (by omega), hts, Nat.add_sub_cancel_left]
  refine ⟨t, _, ht, henc, ?length, List.take_left' hts, ?kept, ?swapped⟩
  case length =>
    rw [mfuEncode_length henc, isSome_ssField, List.length_drop, Nat.add_sub_cancel' hl]
  case kept =>
    intro k hk hkept
    obtain ⟨j, rfl⟩ := Nat.exists_eq_add_of_le hk
    rw [htail, getElem?_reencodedTail_kept hl (hkept.imp_right (Or.imp (by omega) (by omega)))]
  case swapped =>
    rintro rfl
    have h16 : 16 ≤ region.length := hl
    rw [reencodedTail_sync h16] at htail ⊢
    refine ⟨(htail 2).trans ?_, (htail 3).trans ?_, (htail 4).trans ?_, (htail 5).trans ?_,
      (htail 6).trans ?_, (htail 7).trans ?_⟩
    all_goals simp

end Sys2Proof.Machine
end

section
/-! PROOF. The start of a decode and the decode steps (42_data_packet_decode.md R160 to R167; O10, O24 to O28): what
each gives where its rule enables it, one equation a case. -/

namespace Sys2Proof.Machine

/-! Parts of what IBUF holds (00_scope.md R11, R13). -/

theorem take_ibufSlice (s : State) (a : Nat) {m n : Nat} (h : m ≤ n) :
    (s.ibufSlice a n).take m = s.ibufSlice a m := by
  rw [State.ibufSlice, ← List.map_take, List.take_range'_of_length_ge h, State.ibufSlice]

theorem drop_ibufSlice (s : State) (a n m : Nat) :
    (s.ibufSlice a n).drop m = s.ibufSlice (a + m) (n - m) := by
  simp only [State.ibufSlice, ← List.map_drop, List.drop_range', Nat.mul_one]

theorem memRead_of_le {s : State} {a n : Nat} (h : a + n ≤ s.params.bufCap) :
    s.memRead a n = some (s.ibufSlice a n) :=
  memRead_eq_some.2 ⟨h, rfl⟩

/-- A little-endian 32-bit value is the sum of its bytes, each at its weight (00_scope.md R12). -/
theorem toNat_le32_quad (a b c d : Byte) :
    (le32 [a, b, c, d]).toNat = a.toNat + 2 ^ 8 * b.toNat + 2 ^ 16 * c.toNat + 2 ^ 24 * d.toNat := by
  have ha := a.isLt
  have hb := b.isLt
  have hc := c.isLt
  have hd := d.isLt
  simp only [le32, leNat, BitVec.toNat_ofNat]
  omega

/-! The record size, the stride and the fit test of a running decode (R163, R164). -/

theorem rs_eq (s : State) : s.rs = s.latchP + 10 := rfl

theorem offset_add_stride (s : State) :
    s.offset + s.stride = s.offset + (s.latchP + 10) + (s.latchP + 10) % 2 :=
  (Nat.add_assoc _ _ _).symm

theorem fits_of_le {s : State} (h : s.offset + s.rs ≤ s.latchL) : s.fits = true := decide_eq_true h

theorem not_fits_of_lt {s : State} (h : s.latchL < s.offset + s.rs) : s.fits = false :=
  decide_eq_false (Nat.not_le.2 h)

/-- In D_FR an item is left where a record fits (30_encoding.md R104). -/
theorem more_of_dFr {s : State} (h : s.phase = .dFr) : s.more = s.fits := by
  simp only [State.more, h]

/-! What each step gives. -/

section
variable {s : State}

theorem execCmdDecode_of_empty (h : s.status = .empty) : execCmdDecode s = .next s.startDecode := by
  simp only [execCmdDecode, h]

theorem execDpMode_short (h : s.phase = .dMode) (hl : s.latchL < 4) :
    execDpMode s = .next (s.takeDecodeFault .malformedBuffer none) :=
  (if_pos h).trans (if_pos hl)

/-- IBUF always holds the four bytes of a mode word (00_scope.md R9). -/
theorem execDpMode_read (h : s.phase = .dMode) (hl : 4 ≤ s.latchL) :
    execDpMode s = .next { s with
      modeWord := le32 (s.ibufSlice 0 4), offset := 4, phase := decodeRoute (le32 (s.ibufSlice 0 4)) } := by
  have hread : s.memRead 0 modeWordBytes = some (s.ibufSlice 0 4) := memRead_of_le s.params.bufCap_ge
  have hlen : ¬ s.latchL < modeWordBytes := Nat.not_lt.2 hl
  rw [execDpMode, if_pos h, if_neg hlen, hread]
  rfl

theorem execDpDecTp_body (h : s.phase = .dTp) (hl : 4 ≤ s.latchL) (hc : s.latchL ≤ s.params.bufCap) :
    execDpDecTp s = .next ({ s with
      frames := [.tp (s.ibufSlice 4 (s.latchL - 4))], offset := s.latchL } : State).endDecode := by
  have hread : s.memRead firstRecOffset (s.latchL - firstRecOffset) = some (s.ibufSlice 4 (s.latchL - 4)) :=
    memRead_of_le ((Nat.add_sub_cancel' hl).trans_le hc)
  rw [execDpDecTp, if_pos h, hread]
  rfl

theorem execDpDecFr_enter (h : s.phase = .dFre) (hp : s.latchPV = true) :
    execDpDecFr s = .next { s with phase := .dFr } :=
  (if_pos h).trans (if_pos hp)

theorem execDpDecFr_noFps (h : s.phase = .dFre) (hp : s.latchPV = false) :
    execDpDecFr s = .next (s.takeDecodeFault .configurationError none) :=
  (if_pos h).trans (if_neg (Bool.eq_false_iff.1 hp))

theorem execDpDecFrStep_of_fits (h : s.phase = .dFr) (hf : s.offset + s.rs ≤ s.latchL) :
    execDpDecFrStep s = decodeRecord s.codec s :=
  if_pos ⟨h, fits_of_le hf⟩

theorem execDpDecFrStop_of_not_fits (h : s.phase = .dFr) (hf : s.latchL < s.offset + s.rs) :
    execDpDecFrStop s = .next s.endDecode :=
  if_pos ⟨h, not_fits_of_lt hf⟩

/-- A record that decodes is appended, and the cursor moves on by a stride (R165). -/
theorem decodeRecord_ok {c : Codec} {f : MinorFrame} (hc : s.offset + s.rs ≤ s.params.bufCap)
    (hd : mfuDecode c (s.ibufSlice s.offset s.rs) false s.latchX s.latchS = .ok f) :
    decodeRecord c s = .next { s.pushFrame f with offset := s.offset + s.stride } := by
  simp only [decodeRecord, memRead_of_le hc, hd]

/-- A record that does not decode ends the decode with the wrapped fault (R167). -/
theorem decodeRecord_error {c : Codec} {k : ErrKind} (hc : s.offset + s.rs ≤ s.params.bufCap)
    (hd : mfuDecode c (s.ibufSlice s.offset s.rs) false s.latchX s.latchS = .error k) :
    decodeRecord c s = .next (s.takeDecodeFault .offsetDecodeError (some k)) := by
  simp only [decodeRecord, memRead_of_le hc, hd]

end

/-! The obligations. -/

/-- Settles O10: the accepting row of CMD.DECODE. -/
theorem decodeStartStep : Obligations.DecodeStartStep := fun _ h => execCmdDecode_of_empty h

/-- Settles O24: the mode word is the little-endian value of the four bytes of IBUF. -/
theorem modeWordStep : Obligations.ModeWordStep := fun s h =>
  ⟨fun hl => ⟨le32 (s.ibufSlice 0 4), toNat_le32_quad _ _ _ _, execDpMode_read h hl⟩,
    fun hl => execDpMode_short h hl⟩

/-- Settles O25: the payload is the slice of IBUF from byte 4 to L. -/
theorem throughputBodyStep : Obligations.ThroughputBodyStep := fun s h hl hc =>
  ⟨s.ibufSlice 4 (s.latchL - 4), length_ibufSlice .., fun _ hk => getElem?_ibufSlice _ _ _ _ hk,
    execDpDecTp_body h hl hc⟩

/-- Settles O26: the two outcomes of the test of PV. -/
theorem framedEntryStep : Obligations.FramedEntryStep := fun _ h =>
  ⟨execDpDecFr_enter h, execDpDecFr_noFps h⟩

/-- Settles O28: the fit test enables the step and selects it. -/
theorem iterationStopStep : Obligations.IterationStopStep := by
  refine fun s h => ⟨fun hf => ⟨execDpDecFrStop_of_not_fits h hf, ?stop⟩, fun hf => ?step⟩
  case stop => rw [more_of_dFr h, not_fits_of_lt hf, h]; rfl
  case step => rw [more_of_dFr h, fits_of_le hf, h]; rfl

/-- Where the codec accepts a record that is long enough for the extraction, the record is appended, and its frame is
known field by field (R165; 40_minor_frame_decode.md R127 to R129). -/
theorem decodeRecord_accepted {c : Codec} {s : State} {t : TS} (hc : s.offset + s.rs ≤ s.params.bufCap)
    (hx : headerBytes s.latchX ≤ s.rs) (ht : c.dec s.latchS (s.ibufSlice s.offset 8) = some t) :
    ∃ hdr ss, ss.isSome = s.latchX ∧ decodeRecord c s = .next { s.pushFrame (.fr (some t) hdr ss
        (s.ibufSlice (s.offset + headerBytes s.latchX) (s.rs - headerBytes s.latchX))) with
      offset := s.offset + s.stride } := by
  have hd := mfuDecode_framed c (s.ibufSlice s.offset s.rs) s.latchX s.latchS (by simpa using hx)
  rw [take_ibufSlice s s.offset (show 8 ≤ s.rs by rw [rs_eq]; omega), ht, drop_ibufSlice] at hd
  exact ⟨_, _, isSome_ssField _ _, decodeRecord_ok hc hd⟩

/-- Settles O27: the step is `decodeRecord`, whose outcome is the outcome of the minor-frame decode; a fault it wraps
is MalformedBuffer (`mfuDecode_error`). -/
theorem recordStep : Obligations.RecordStep := by
  refine ⟨fun s h hf hl => ?step, fun c s t hc hx ht => ?accepted⟩
  case step =>
    have hrec := execDpDecFrStep_of_fits h hf
    refine ⟨hrec.trans ?_, hrec⟩
    have hc : s.offset + s.rs ≤ s.params.bufCap := hf.trans hl
    cases hd : mfuDecode s.codec (s.ibufSlice s.offset (s.latchP + 10)) false s.latchX s.latchS with
    | ok f => rw [decodeRecord_ok hc hd, offset_add_stride]; rfl
    | error k => rw [decodeRecord_error hc hd, mfuDecode_error hd]
  case accepted =>
    have hlen : headerBytes s.latchX ≤ s.rs := by
      cases hX : s.latchX with
      | false => exact Nat.le_add_left _ _
      | true => exact Nat.add_le_add_right (hx hX) 10
    obtain ⟨hdr, ss, hss, hrec⟩ := decodeRecord_accepted hc hlen ht
    rw [offset_add_stride] at hrec
    refine ⟨_, hrec, rfl, rfl, hss, ?_⟩
    cases s.latchX <;> rfl

end Sys2Proof.Machine
end

section
/-! PROOF. The big-step decode (42_data_packet_decode.md R155), one equation a case, and the closed form of the record
positions and of their number (R172, R173; O47). -/

namespace Sys2Proof.Machine

/-! The loop (R155). -/

section
variable {c : Codec} {buf : Bytes} {x : Bool} {rs : Nat} {src : TsSrc} {mw : U32} {fr : List MinorFrame} {off : Nat}

/-- The loop ends where no record fits. -/
theorem decodeRecords_stop (h : buf.length < off + rs) (fuel : Nat) :
    decodeRecords c buf x rs src mw fuel fr off = .ok mw fr off := by
  cases fuel with
  | zero => rfl
  | succ fuel => exact if_neg (Nat.not_le.2 h)

/-- A record that decodes is appended, and the loop goes on a stride further. -/
theorem decodeRecords_record {f : MinorFrame} (h : off + rs ≤ buf.length)
    (hd : mfuDecode c (slice buf off (off + rs)) false x src = .ok f) (fuel : Nat) :
    decodeRecords c buf x rs src mw (fuel + 1) fr off
      = decodeRecords c buf x rs src mw fuel (fr ++ [f]) (off + padded rs) := by
  rw [decodeRecords, if_pos h, hd]

/-- A record that does not decode ends the loop with the wrapped fault. -/
theorem decodeRecords_error {k : ErrKind} (h : off + rs ≤ buf.length)
    (hd : mfuDecode c (slice buf off (off + rs)) false x src = .error k) (fuel : Nat) :
    decodeRecords c buf x rs src mw (fuel + 1) fr off = .fault .offsetDecodeError (some k) off buf.length := by
  rw [decodeRecords, if_pos h, hd]

end

/-- Fuel that outlasts the buffer: every record takes at least ten bytes (R174). -/
def FuelSuffices (buf : Bytes) (off fuel : Nat) : Prop := buf.length < off + 10 * (fuel + 1)

theorem fuelSuffices_length (buf : Bytes) (off : Nat) : FuelSuffices buf off buf.length := by
  unfold FuelSuffices
  omega

/-- Without fuel no record fits. -/
theorem lt_of_fuelSuffices_zero {buf : Bytes} {off rs : Nat} (h : FuelSuffices buf off 0) (hrs : 10 ≤ rs) :
    buf.length < off + rs :=
  Nat.lt_of_lt_of_le h (Nat.add_le_add_left hrs off)

/-- A stride costs one unit of fuel. -/
theorem FuelSuffices.next {buf : Bytes} {off fuel rs : Nat} (h : FuelSuffices buf off (fuel + 1)) (hrs : 10 ≤ rs) :
    FuelSuffices buf (off + padded rs) fuel := by
  have := le_padded rs
  unfold FuelSuffices at *
  omega

/-! The whole decode (R155). -/

section
variable {c : Codec} {buf : Bytes} {x : Bool} {p : Nat} {pv : Bool} {src : TsSrc}

theorem dpDecode_short (h : buf.length < 4) : dpDecode c buf x p pv src = .fault .malformedBuffer none 0 buf.length :=
  if_pos h

theorem dpDecode_throughput (h : 4 ≤ buf.length) (htp : modeWordTp (le32 (slice buf 0 4)) = true) :
    dpDecode c buf x p pv src = .ok (le32 (slice buf 0 4)) [.tp (sliceFrom buf 4)] buf.length :=
  (if_neg (Nat.not_lt.2 h)).trans (if_pos htp)

theorem dpDecode_framed (h : 4 ≤ buf.length) (htp : modeWordTp (le32 (slice buf 0 4)) = false) (hpv : pv = true) :
    dpDecode c buf x p pv src
      = decodeRecords c buf x (p + 10) src (le32 (slice buf 0 4)) buf.length [] 4 :=
  (if_neg (Nat.not_lt.2 h)).trans ((if_neg (Bool.eq_false_iff.1 htp)).trans (if_pos hpv))

theorem dpDecode_noFps (h : 4 ≤ buf.length) (htp : modeWordTp (le32 (slice buf 0 4)) = false) (hpv : pv = false) :
    dpDecode c buf x p pv src = .fault .configurationError none 4 buf.length :=
  (if_neg (Nat.not_lt.2 h)).trans ((if_neg (Bool.eq_false_iff.1 htp)).trans (if_neg (Bool.eq_false_iff.1 hpv)))

/-- A fault-free decode of a framed packet is a run of the loop over the whole buffer. -/
theorem dpDecode_framed_ok {mw : U32} {fr : List MinorFrame} {off : Nat}
    (h : dpDecode c buf x p pv src = .ok mw fr off) (htp : modeWordTp mw = false) :
    ∃ w, decodeRecords c buf x (p + 10) src w buf.length [] 4 = .ok mw fr off := by
  by_cases hl : buf.length < 4
  · rw [dpDecode_short hl] at h
    cases h
  have hl : 4 ≤ buf.length := Nat.not_lt.1 hl
  cases hw : modeWordTp (le32 (slice buf 0 4)) with
  | true =>
    rw [dpDecode_throughput hl hw] at h
    cases h
    rw [hw] at htp
    cases htp
  | false =>
    cases pv with
    | false =>
      rw [dpDecode_noFps hl hw rfl] at h
      cases h
    | true =>
      rw [dpDecode_framed hl hw rfl] at h
      exact ⟨_, h⟩

end

/-! Records one stride apart (R172, R173). -/

/-- The frames are those of the records from `off` on, one stride apart, as many as fit. -/
structure RecordsFrom (c : Codec) (buf : Bytes) (x : Bool) (rs : Nat) (src : TsSrc) (off : Nat)
    (frames : List MinorFrame) : Prop where
  fits : ∀ k, k < frames.length → off + k * padded rs + rs ≤ buf.length
  decoded : ∀ k f, frames[k]? = some f →
    mfuDecode c (slice buf (off + k * padded rs) (off + k * padded rs + rs)) false x src = .ok f
  stop : buf.length < off + frames.length * padded rs + rs

section
variable {c : Codec} {buf : Bytes} {x : Bool} {rs : Nat} {src : TsSrc} {off : Nat}

theorem recordsFrom_nil (h : buf.length < off + rs) : RecordsFrom c buf x rs src off [] where
  fits _ hk := absurd hk (Nat.not_lt_zero _)
  decoded _ _ hf := by simp at hf
  stop := by simpa using h

/-- Record `k + 1` from `off` on is record `k` from a stride further on. -/
theorem position_succ (off k stride : Nat) : off + (k + 1) * stride = off + stride + k * stride := by
  rw [Nat.add_one_mul, Nat.add_comm (k * stride), Nat.add_assoc]

theorem recordsFrom_cons {f : MinorFrame} {frames : List MinorFrame} (h : off + rs ≤ buf.length)
    (hd : mfuDecode c (slice buf off (off + rs)) false x src = .ok f)
    (hr : RecordsFrom c buf x rs src (off + padded rs) frames) : RecordsFrom c buf x rs src off (f :: frames) where
  fits
    | 0, _ => by simpa using h
    | k + 1, hk => by
      rw [position_succ]
      exact hr.fits k (Nat.lt_of_succ_lt_succ hk)
  decoded
    | 0, g, hg => by
      obtain rfl : f = g := by simpa using hg
      simpa using hd
    | k + 1, g, hg => by
      rw [position_succ]
      exact hr.decoded k g (by simpa using hg)
  stop := by
    rw [List.length_cons, position_succ]
    exact hr.stop

/-- A fault-free run of the loop appends the frames of the records from the cursor on. -/
theorem recordsFrom_of_decodeRecords {mw mw' : U32} (hrs : 10 ≤ rs) {fuel : Nat} {fr fr' : List MinorFrame}
    {off' : Nat} (hfuel : FuelSuffices buf off fuel)
    (h : decodeRecords c buf x rs src mw fuel fr off = .ok mw' fr' off') :
    ∃ frames, fr' = fr ++ frames ∧ off' = off + frames.length * padded rs
      ∧ RecordsFrom c buf x rs src off frames := by
  induction fuel generalizing fr off with
  | zero =>
    cases h
    exact ⟨[], by simp, by simp, recordsFrom_nil (lt_of_fuelSuffices_zero hfuel hrs)⟩
  | succ fuel ih =>
    by_cases hfit : off + rs ≤ buf.length
    · cases hd : mfuDecode c (slice buf off (off + rs)) false x src with
      | error k =>
        rw [decodeRecords_error hfit hd] at h
        cases h
      | ok f =>
        rw [decodeRecords_record hfit hd] at h
        obtain ⟨frames, rfl, rfl, hr⟩ := ih (hfuel.next hrs) h
        exact ⟨f :: frames, by simp, (position_succ _ _ _).symm, recordsFrom_cons hfit hd hr⟩
    · have hend : buf.length < off + rs := Nat.not_le.1 hfit
      rw [decodeRecords_stop hend] at h
      cases h
      exact ⟨[], by simp, by simp, recordsFrom_nil hend⟩

/-- The number of records (R173): the last one fits, and one more would not. -/
theorem RecordsFrom.length_eq {frames : List MinorFrame} (hr : RecordsFrom c buf x rs src off frames) :
    frames.length = if buf.length < off + rs then 0 else (buf.length - off - rs) / padded rs + 1 := by
  have hend := hr.stop
  rcases hn : frames.length with _ | n
  · rw [hn, Nat.zero_mul] at hend
    rw [if_pos (by simpa using hend)]
  · have hlast := hr.fits n (by omega)
    rw [hn, Nat.add_one_mul] at hend
    have hdiv : (buf.length - off - rs) / padded rs = n :=
      Nat.div_eq_of_lt_le (by omega) (by rw [Nat.add_one_mul]; omega)
    rw [if_neg (by omega), hdiv]

end

/-- Settles O47: the loop's frames are those of the records from byte 4 on (`recordsFrom_of_decodeRecords`). -/
theorem recordPositionsAndCount : Obligations.RecordPositionsAndCount := by
  intro c buf x p pv src mw fr off h htp
  obtain ⟨w, hloop⟩ := dpDecode_framed_ok h htp
  obtain ⟨frames, hfr, hoff, hr⟩ :=
    recordsFrom_of_decodeRecords (Nat.le_add_left 10 p) (fuelSuffices_length buf 4) hloop
  obtain rfl : fr = frames := hfr
  exact ⟨hoff, hr.length_eq, hr.decoded⟩

end Sys2Proof.Machine
end

section
/-! PROOF. A decode that the host leaves alone ends within its bound in the state of the big-step rule
(42_data_packet_decode.md R155, R174; O53). The small steps before the iteration are followed one by one; in the
iteration each step takes one turn of the loop of R155. -/

namespace Sys2Proof.Machine

/-! Runs of the machine (00_scope.md R19). -/

/-- The machine comes from the one state to the other in at most so many steps. -/
def State.RunsTo (s : State) (bound : Nat) (t : State) : Prop :=
  ∃ n, n ≤ bound ∧ Host.Core.run Sys2Proof.core n s = .next t

theorem run_succ_of_step {M : Host.Core} {s t : M.State} (h : M.step s = .next t) (n : Nat) :
    M.run (n + 1) s = M.run n t := by
  rw [Host.Core.run, h]

theorem runsTo_refl (s : State) (bound : Nat) : s.RunsTo bound s := ⟨0, Nat.zero_le _, rfl⟩

/-- A first step and a run from where it leads. -/
theorem runsTo_of_step {s t u : State} {bound : Nat} (h : step s = .next t) (hr : t.RunsTo bound u) :
    s.RunsTo (bound + 1) u := by
  obtain ⟨n, hn, hrun⟩ := hr
  exact ⟨n + 1, Nat.succ_le_succ hn, (run_succ_of_step (M := Sys2Proof.core) h n).trans hrun⟩

/-- A state one step away. -/
theorem runsTo_one {s t : State} (h : step s = .next t) : s.RunsTo 1 t := runsTo_of_step h (runsTo_refl t 0)

theorem State.RunsTo.mono {s t : State} {m n : Nat} (h : s.RunsTo m t) (hmn : m ≤ n) : s.RunsTo n t := by
  obtain ⟨k, hk, hrun⟩ := h
  exact ⟨k, hk.trans hmn, hrun⟩

/-- A step that ends a run keeps within every positive bound. -/
theorem runsTo_of_last_step {s t : State} (h : step s = .next t) (n : Nat) : s.RunsTo (n + 1) t :=
  (runsTo_one h).mono (Nat.le_add_left 1 n)

/-! The decode steps as steps of the machine (30_encoding.md R104, 70_reset_and_hazards.md R271). -/

section
variable {s : State}

/-- Left alone by the host, a running command takes the small step that PHASE selects. -/
theorem step_of_selected {i : Instr} (hh : s.host = []) (hp : s.phase ≠ .idle)
    (hd : decode (.step s.phase s.more) = .ok i) : step s = exec i s :=
  step_of_fetch_run ((fetch_nil hh).trans (fetchStep_of_running hp)) hd

theorem step_of_dMode (hh : s.host = []) (h : s.phase = .dMode) : step s = execDpMode s :=
  step_of_selected (i := .dpMode) hh (by simp [h]) (by rw [h]; rfl)

theorem step_of_dTp (hh : s.host = []) (h : s.phase = .dTp) : step s = execDpDecTp s :=
  step_of_selected (i := .dpDecTp) hh (by simp [h]) (by rw [h]; rfl)

theorem step_of_dFre (hh : s.host = []) (h : s.phase = .dFre) : step s = execDpDecFr s :=
  step_of_selected (i := .dpDecFr) hh (by simp [h]) (by rw [h]; rfl)

theorem step_of_dFr_fits (hh : s.host = []) (h : s.phase = .dFr) (hf : s.offset + s.rs ≤ s.latchL) :
    step s = decodeRecord s.codec s :=
  (step_of_selected hh (by simp [h]) ((iterationStopStep s h).2 hf)).trans (execDpDecFrStep_of_fits h hf)

theorem step_of_dFr_stop (hh : s.host = []) (h : s.phase = .dFr) (hf : s.latchL < s.offset + s.rs) :
    step s = .next s.endDecode :=
  (step_of_selected hh (by simp [h]) ((iterationStopStep s h).1 hf).2).trans (execDpDecFrStop_of_not_fits h hf)

end

/-! The state that a decode result leaves (R155). -/

/-- The mode word of the valid input buffer (R161). -/
def State.inputWord (s : State) : U32 := le32 (slice s.inputBuffer 0 4)

theorem inputWord_eq {s : State} (h : 4 ≤ s.latchL) : s.inputWord = le32 (s.ibufSlice 0 4) :=
  congrArg le32 (slice_inputBuffer s 0 4 h)

/-- After a decode no command runs. -/
theorem applyDecode_phase (s : State) (r : DecodeResult) : (s.applyDecode r).phase = .idle := by
  cases r <;> rfl

theorem applyDecode_fault_short {s : State} (h : s.latchL < 4) (k : ErrKind) (cause : Option ErrKind) (n : Nat) :
    s.applyDecode (.fault k cause s.offset n) = s.takeDecodeFault k cause := by
  rw [State.applyDecode, if_pos (show s.latchL < modeWordBytes from h)]

theorem applyDecode_fault {s : State} (h : 4 ≤ s.latchL) (k : ErrKind) (cause : Option ErrKind) (o n : Nat) :
    s.applyDecode (.fault k cause o n)
      = ({ s with modeWord := s.inputWord, offset := o } : State).takeDecodeFault k cause := by
  rw [State.applyDecode, if_neg (show ¬ s.latchL < modeWordBytes from Nat.not_lt.2 h)]
  rfl

/-- Where the mode word was read, the end of a decode does not depend on how far the decode has come. -/
theorem applyDecode_progress {s : State} (h : 4 ≤ s.latchL) (w : U32) (fr : List MinorFrame) (o : Nat) (ph : Phase)
    (r : DecodeResult) :
    ({ s with modeWord := w, frames := fr, offset := o, phase := ph } : State).applyDecode r = s.applyDecode r := by
  cases r with
  | ok mw fr' off => rfl
  | fault k cause off n =>
    rw [applyDecode_fault h]
    exact applyDecode_fault (s := { s with modeWord := w, frames := fr, offset := o, phase := ph }) h k cause off n

/-! The iteration (R164 to R167). -/

/-- A decode in its iteration that the host leaves alone, with the mode word read. -/
structure State.Iterating (s : State) : Prop where
  phase : s.phase = .dFr
  host : s.host = []
  latchL_ge : 4 ≤ s.latchL
  latchL_le : s.latchL ≤ s.params.bufCap
  word : s.modeWord = s.inputWord

/-- The state that a record leaves (R165). -/
def State.afterRecord (s : State) (f : MinorFrame) : State :=
  { s.pushFrame f with offset := s.offset + s.stride }

theorem iterating_afterRecord {s : State} (hs : s.Iterating) (f : MinorFrame) : (s.afterRecord f).Iterating :=
  { hs with }

/-- The result that the loop of R155 gives from where the iteration stands. -/
def State.loopResult (s : State) (fuel : Nat) : DecodeResult :=
  decodeRecords s.codec s.inputBuffer s.latchX s.rs s.latchS s.modeWord fuel s.frames s.offset

section
variable {s : State}

theorem loopResult_stop (hf : s.latchL < s.offset + s.rs) (fuel : Nat) :
    s.loopResult fuel = .ok s.modeWord s.frames s.offset :=
  decodeRecords_stop (by simpa using hf) fuel

/-- A record of the loop is the record that the step reads from IBUF. -/
theorem mfuDecode_inputBuffer (hf : s.offset + s.rs ≤ s.latchL) :
    mfuDecode s.codec (slice s.inputBuffer s.offset (s.offset + s.rs)) false s.latchX s.latchS
      = mfuDecode s.codec (s.ibufSlice s.offset s.rs) false s.latchX s.latchS := by
  rw [slice_inputBuffer s _ _ hf]

theorem loopResult_record {f : MinorFrame} (hf : s.offset + s.rs ≤ s.latchL)
    (hd : mfuDecode s.codec (s.ibufSlice s.offset s.rs) false s.latchX s.latchS = .ok f) (fuel : Nat) :
    s.loopResult (fuel + 1) = (s.afterRecord f).loopResult fuel :=
  decodeRecords_record (by simpa using hf) ((mfuDecode_inputBuffer hf).trans hd) fuel

theorem loopResult_error {k : ErrKind} (hf : s.offset + s.rs ≤ s.latchL)
    (hd : mfuDecode s.codec (s.ibufSlice s.offset s.rs) false s.latchX s.latchS = .error k) (fuel : Nat) :
    s.loopResult (fuel + 1) = .fault .offsetDecodeError (some k) s.offset s.inputBuffer.length :=
  decodeRecords_error (by simpa using hf) ((mfuDecode_inputBuffer hf).trans hd) fuel

theorem ten_le_rs (s : State) : 10 ≤ s.rs := Nat.le_add_left _ _

/-- Where no record fits, the step that ends the iteration gives the loop's result. -/
theorem step_loopResult_stop (hs : s.Iterating) (hf : s.latchL < s.offset + s.rs) (fuel : Nat) :
    step s = .next (s.applyDecode (s.loopResult fuel)) := by
  rw [step_of_dFr_stop hs.host hs.phase hf, loopResult_stop hf]
  rfl

/-- A record that does not decode ends the iteration with the loop's fault. -/
theorem step_loopResult_error (hs : s.Iterating) (hf : s.offset + s.rs ≤ s.latchL) {k : ErrKind}
    (hd : mfuDecode s.codec (s.ibufSlice s.offset s.rs) false s.latchX s.latchS = .error k) (fuel : Nat) :
    step s = .next (s.applyDecode (s.loopResult (fuel + 1))) := by
  rw [step_of_dFr_fits hs.host hs.phase hf, decodeRecord_error (hf.trans hs.latchL_le) hd,
    loopResult_error hf hd, applyDecode_fault hs.latchL_ge, ← hs.word]

theorem step_afterRecord (hs : s.Iterating) (hf : s.offset + s.rs ≤ s.latchL) {f : MinorFrame}
    (hd : mfuDecode s.codec (s.ibufSlice s.offset s.rs) false s.latchX s.latchS = .ok f) :
    step s = .next (s.afterRecord f) :=
  (step_of_dFr_fits hs.host hs.phase hf).trans (decodeRecord_ok (hf.trans hs.latchL_le) hd)

/-- A record that decodes leads to a state whose loop has the same end. -/
theorem applyDecode_loopResult_record (hs : s.Iterating) (hf : s.offset + s.rs ≤ s.latchL) {f : MinorFrame}
    (hd : mfuDecode s.codec (s.ibufSlice s.offset s.rs) false s.latchX s.latchS = .ok f) (fuel : Nat) :
    (s.afterRecord f).applyDecode ((s.afterRecord f).loopResult fuel)
      = s.applyDecode (s.loopResult (fuel + 1)) := by
  rw [loopResult_record hf hd]
  exact applyDecode_progress hs.latchL_ge s.modeWord _ _ s.phase _

/-- A record uses up at least ten of the bytes that are left (R174). -/
theorem afterRecord_steps_le (hf : s.offset + s.rs ≤ s.latchL) (f : MinorFrame) :
    ((s.afterRecord f).latchL - (s.afterRecord f).offset) / 10 + 1 + 1 ≤ (s.latchL - s.offset) / 10 + 1 := by
  have hstride := stride_ge s
  have hrs := ten_le_rs s
  have hoff : (s.afterRecord f).offset = s.offset + s.stride := rfl
  have hlen : (s.afterRecord f).latchL = s.latchL := rfl
  omega

/-- From where it stands the iteration ends as the loop does; each of its steps but the last moves the cursor on by
ten bytes at least (R174). -/
theorem runsTo_loopResult {fuel : Nat} (hs : s.Iterating) (hfuel : FuelSuffices s.inputBuffer s.offset fuel) :
    s.RunsTo ((s.latchL - s.offset) / 10 + 1) (s.applyDecode (s.loopResult fuel)) := by
  induction fuel generalizing s with
  | zero =>
    have hend : s.latchL < s.offset + s.rs := by
      simpa using lt_of_fuelSuffices_zero hfuel (ten_le_rs s)
    exact runsTo_of_last_step (step_loopResult_stop hs hend 0) _
  | succ fuel ih =>
    by_cases hf : s.offset + s.rs ≤ s.latchL
    · cases hd : mfuDecode s.codec (s.ibufSlice s.offset s.rs) false s.latchX s.latchS with
      | error k => exact runsTo_of_last_step (step_loopResult_error hs hf hd fuel) _
      | ok f =>
        have hrest := ih (iterating_afterRecord hs f) (hfuel.next (ten_le_rs s))
        rw [applyDecode_loopResult_record hs hf hd] at hrest
        exact (runsTo_of_step (step_afterRecord hs hf hd) hrest).mono (afterRecord_steps_le hf f)
    · exact runsTo_of_last_step (step_loopResult_stop hs (Nat.not_le.1 hf) (fuel + 1)) _

end

/-! The steps before the iteration (R161 to R163). -/

/-- The state that DP.MODE leaves where the buffer has a mode word (R161). -/
def State.afterMode (s : State) : State :=
  { s with modeWord := s.inputWord, offset := 4, phase := decodeRoute s.inputWord }

/-- The state in which the iteration begins (R163). -/
def State.entered (s : State) : State := { s.afterMode with phase := .dFr }

section
variable {s : State}

theorem step_afterMode (hh : s.host = []) (h : s.phase = .dMode) (hl : 4 ≤ s.latchL) :
    step s = .next s.afterMode := by
  rw [step_of_dMode hh h, execDpMode_read h hl, ← inputWord_eq hl]
  rfl

theorem step_entered (hh : s.host = []) (hw : modeWordTp s.inputWord = false) (hpv : s.latchPV = true) :
    step s.afterMode = .next s.entered :=
  have hp : s.afterMode.phase = .dFre := decodeRoute_eq_dFre.2 hw
  (step_of_dFre (s := s.afterMode) hh hp).trans (execDpDecFr_enter hp hpv)

theorem iterating_entered (hh : s.host = []) (hl : 4 ≤ s.latchL) (hc : s.latchL ≤ s.params.bufCap) :
    s.entered.Iterating where
  phase := rfl
  host := hh
  latchL_ge := hl
  latchL_le := hc
  word := rfl

/-! The end of the decode by its case (R155). -/

/-- A buffer without a mode word: the decode ends in its first step. -/
theorem step_decodeEnd_short (hh : s.host = []) (h : s.phase = .dMode) (ho : s.offset = 0) (hl : s.latchL < 4) :
    step s = .next (s.decodeEnd s.codec) := by
  rw [step_of_dMode hh h, execDpMode_short h hl, State.decodeEnd, dpDecode_short (by simpa using hl), ← ho,
    applyDecode_fault_short hl]

/-- A throughput packet: the decode ends in its second step. -/
theorem step_decodeEnd_throughput (hh : s.host = []) (hl : 4 ≤ s.latchL) (hc : s.latchL ≤ s.params.bufCap)
    (hw : modeWordTp s.inputWord = true) : step s.afterMode = .next (s.decodeEnd s.codec) := by
  have hp : s.afterMode.phase = .dTp := decodeRoute_eq_dTp.2 hw
  rw [step_of_dTp (s := s.afterMode) hh hp, execDpDecTp_body hp hl hc, State.decodeEnd,
    dpDecode_throughput (by simpa using hl) hw, sliceFrom_inputBuffer, length_inputBuffer]
  rfl

/-- A framed packet without FPS: the decode ends in its second step. -/
theorem step_decodeEnd_noFps (hh : s.host = []) (hl : 4 ≤ s.latchL) (hw : modeWordTp s.inputWord = false)
    (hpv : s.latchPV = false) : step s.afterMode = .next (s.decodeEnd s.codec) := by
  have hp : s.afterMode.phase = .dFre := decodeRoute_eq_dFre.2 hw
  rw [step_of_dFre (s := s.afterMode) hh hp, execDpDecFr_noFps hp hpv, State.decodeEnd,
    dpDecode_noFps (by simpa using hl) hw hpv, applyDecode_fault hl]
  rfl

/-- A framed packet with FPS: the decode ends as the iteration does. -/
theorem decodeEnd_framed (hl : 4 ≤ s.latchL) (hf : s.frames = []) (hw : modeWordTp s.inputWord = false)
    (hpv : s.latchPV = true) :
    s.entered.applyDecode (s.entered.loopResult s.inputBuffer.length) = s.decodeEnd s.codec := by
  have hloop : s.entered.loopResult s.inputBuffer.length
      = dpDecode s.codec s.inputBuffer s.latchX s.latchP s.latchPV s.latchS := by
    rw [dpDecode_framed (by simpa using hl) hw hpv, ← hf]
    rfl
  rw [hloop]
  exact applyDecode_progress hl s.inputWord s.frames 4 .dFr _

/-- Once the mode word is read, the decode takes at most one step for each ten bytes after it, and two more. -/
theorem afterMode_runsTo_decodeEnd (hh : s.host = []) (hl : 4 ≤ s.latchL) (hc : s.latchL ≤ s.params.bufCap)
    (hf : s.frames = []) : s.afterMode.RunsTo ((s.latchL - 4) / 10 + 2) (s.decodeEnd s.codec) := by
  cases hw : modeWordTp s.inputWord with
  | true => exact runsTo_of_last_step (step_decodeEnd_throughput hh hl hc hw) _
  | false =>
    cases hpv : s.latchPV with
    | false => exact runsTo_of_last_step (step_decodeEnd_noFps hh hl hw hpv) _
    | true =>
      have hloop := runsTo_loopResult (iterating_entered hh hl hc) (fuelSuffices_length s.inputBuffer 4)
      rw [decodeEnd_framed hl hf hw hpv] at hloop
      exact runsTo_of_step (step_entered hh hw hpv) hloop

end

/-- Settles O53: DP.MODE faults or leads to `afterMode_runsTo_decodeEnd`. -/
theorem decodeEndsAsBigStep : Obligations.DecodeEndsAsBigStep := by
  intro s hs h hh
  obtain ⟨ho, hf⟩ := hs.decode.dMode h
  have hruns : s.RunsTo (if s.latchL < 4 then 1 else (s.latchL - 4) / 10 + 3) (s.decodeEnd s.codec) := by
    split
    · next hl => exact runsTo_one (step_decodeEnd_short hh h ho hl)
    · next hl =>
      have hl : 4 ≤ s.latchL := Nat.not_lt.1 hl
      exact runsTo_of_step (step_afterMode hh h hl)
        (afterMode_runsTo_decodeEnd hh hl hs.bounded.latchL_le hf)
  obtain ⟨n, hn, hrun⟩ := hruns
  exact ⟨n, hn, hrun, applyDecode_phase s _⟩

end Sys2Proof.Machine
end

section
/-! PROOF. The start of an encode and the encode steps (43_data_packet_encode.md R181 to R185; O11, O30 to O33): what
each gives where its rule enables it, one equation a case. -/

namespace Sys2Proof.Machine

/-! The bytes of OBUF after a write (00_scope.md R13). -/

theorem obufByte_memWrite_inside (s : State) (a : Nat) {v : Bytes} {k : Nat} (h : k < v.length) :
    some ((s.memWrite a v).obufByte (a + k)) = v[k]? := by
  have hin : a ≤ a + k ∧ a + k < a + v.length := by omega
  simp only [obufByte_memWrite, dif_pos hin, Nat.add_sub_cancel_left, List.getElem?_eq_getElem h]

theorem obufByte_memWrite_outside (s : State) {a k : Nat} {v : Bytes} (h : k < a ∨ a + v.length ≤ k) :
    (s.memWrite a v).obufByte k = s.obufByte k := by
  rw [obufByte_memWrite, dif_neg (by omega)]

/-! A frame's bytes and the pad that follows them (20_memory.md R68). -/

/-- A frame's encoding and, iff its length is odd, one zero byte. -/
def withPad (b : Bytes) : Bytes := b ++ padBytes b.length

theorem length_withPad (b : Bytes) : (withPad b).length = b.length + b.length % 2 := by
  rw [withPad, List.length_append, length_padBytes]

theorem getElem?_withPad {b : Bytes} {k : Nat} (h : k < b.length) : (withPad b)[k]? = b[k]? :=
  List.getElem?_append_left h

theorem withPad_last {b : Bytes} (h : b.length % 2 = 1) : (withPad b)[b.length]? = some 0x00#8 := by
  rw [withPad, padBytes, if_pos h, List.getElem?_concat_length]
  rfl

/-! The states that the encode steps leave. -/

/-- The state after the mode word (R182). -/
def State.afterHeader (s : State) : State :=
  { s.memWrite 0 (le32Enc s.modeWord) with outLen := 4, phase := encodeRoute s.modeWord }

/-- The state after the throughput body (R183). -/
def State.afterBody (s : State) (pay : Bytes) : State :=
  ({ s.memWrite 4 pay with outLen := 4 + pay.length } : State).endEncode

/-- The state after a frame of these bytes (R184). -/
def State.afterFrame (s : State) (b : Bytes) : State :=
  { s.memWrite s.outLen (withPad b) with
    outLen := s.outLen + b.length + b.length % 2, eidx := s.eidx + 1 }

/-! What each step gives. -/

section
variable {s : State}

theorem startEncode_eq {r : Ret} (h : s.status.toRet = r) : s.startEncode = { s with
    ret := r, outValid := false, outLen := 0, eidx := 0, status := .busy, phase := .eHdr } := by
  rw [State.startEncode, h]

theorem execCmdEncode_of_ready (h : s.status = .ready) : execCmdEncode s = .next s.startEncode := by
  simp only [execCmdEncode, h]

theorem execCmdEncode_of_empty (h : s.status = .empty) (htp : s.tp = false) :
    execCmdEncode s = .next s.startEncode := by
  simp only [execCmdEncode, h, if_neg (Bool.eq_false_iff.1 htp)]

theorem execDpEncHdr_emit (h : s.phase = .eHdr) : execDpEncHdr s = .next s.afterHeader := if_pos h

theorem execDpEncTp_emit {f : MinorFrame} {rest : List MinorFrame} (h : s.phase = .eTp) (hf : s.frames = f :: rest)
    (hc : 4 + f.payload.length ≤ s.params.outCap) : execDpEncTp s = .next (s.afterBody f.payload) := by
  rw [execDpEncTp, if_pos h, hf]
  exact if_pos hc

theorem execDpEncTp_full {f : MinorFrame} {rest : List MinorFrame} (h : s.phase = .eTp) (hf : s.frames = f :: rest)
    (hc : s.params.outCap < 4 + f.payload.length) :
    execDpEncTp s = .next (s.takeEncodeFault .capacityError 0) := by
  rw [execDpEncTp, if_pos h, hf]
  exact if_neg (Nat.not_le.2 hc)

/-- A frame that encodes and fits is emitted with its pad (R184). -/
theorem encodeFrame_emit {c : Codec} {f : MinorFrame} {b : Bytes} (he : mfuEncode c f s.latchS = .ok b)
    (hc : s.outLen + b.length + b.length % 2 ≤ s.params.outCap) : encodeFrame c f s = s.afterFrame b := by
  rw [encodeFrame, he]
  exact if_pos hc

/-- A frame that encodes and does not fit (R184). -/
theorem encodeFrame_full {c : Codec} {f : MinorFrame} {b : Bytes} (he : mfuEncode c f s.latchS = .ok b)
    (hc : s.params.outCap < s.outLen + b.length + b.length % 2) :
    encodeFrame c f s = s.takeEncodeFault .capacityError s.eidx := by
  rw [encodeFrame, he]
  exact if_neg (Nat.not_le.2 hc)

/-- A frame that does not encode (60_exceptions.md R228). -/
theorem encodeFrame_error {c : Codec} {f : MinorFrame} {k : ErrKind} (he : mfuEncode c f s.latchS = .error k) :
    encodeFrame c f s = s.takeEncodeFault k s.eidx := by
  rw [encodeFrame, he]

theorem execDpEncFrStep_of_frame {f : MinorFrame} (h : s.phase = .eFr) (hf : s.frames[s.eidx]? = some f) :
    execDpEncFrStep s = .next (encodeFrame s.codec f s) := by
  rw [execDpEncFrStep, if_pos h, hf]

theorem execDpEncFrStop_of_end (h : s.phase = .eFr) (he : s.eidx = s.frames.length) :
    execDpEncFrStop s = .next s.endEncode :=
  if_pos ⟨h, he⟩

end

/-! What OBUF holds in the states that the steps leave. -/

section
variable (s : State)

theorem obufByte_afterHeader {k : Nat} (h : k < 4) :
    some (s.afterHeader.obufByte k) = (le32Enc s.modeWord)[k]? := by
  have hin := obufByte_memWrite_inside s 0 (v := le32Enc s.modeWord) h
  rwa [Nat.zero_add] at hin

theorem obufByte_afterBody {pay : Bytes} {k : Nat} (h : k < pay.length) :
    some ((s.afterBody pay).obufByte (4 + k)) = pay[k]? :=
  obufByte_memWrite_inside s 4 h

theorem obufByte_afterFrame {b : Bytes} {k : Nat} (h : k < b.length) :
    some ((s.afterFrame b).obufByte (s.outLen + k)) = b[k]? :=
  (obufByte_memWrite_inside s s.outLen (by rw [length_withPad]; omega)).trans (getElem?_withPad h)

theorem obufByte_afterFrame_pad {b : Bytes} (h : b.length % 2 = 1) :
    (s.afterFrame b).obufByte (s.outLen + b.length) = 0x00#8 :=
  Option.some.inj
    ((obufByte_memWrite_inside s s.outLen (by rw [length_withPad]; omega)).trans (withPad_last h))

theorem obufByte_afterFrame_outside {b : Bytes} {a : Nat}
    (h : a < s.outLen ∨ s.outLen + b.length + b.length % 2 ≤ a) : (s.afterFrame b).obufByte a = s.obufByte a :=
  obufByte_memWrite_outside s (by rw [length_withPad, ← Nat.add_assoc]; exact h)

end

/-! The obligations. -/

/-- Settles O11: the two accepting rows of CMD.ENCODE; RET is the state it is accepted in. -/
theorem encodeStartStep : Obligations.EncodeStartStep := by
  refine fun s => ⟨fun h => ?ready, fun h htp => ?empty⟩
  case ready => exact (execCmdEncode_of_ready h).trans (congrArg _ (startEncode_eq (by rw [h]; rfl)))
  case empty => exact (execCmdEncode_of_empty h htp).trans (congrArg _ (startEncode_eq (by rw [h]; rfl)))

/-- Settles O30: the write at address 0 of the four bytes of MODE_WORD. -/
theorem encodeHeaderStep : Obligations.EncodeHeaderStep := by
  intro s h
  have hbyte (k : Nat) (hk : k < 4) := obufByte_afterHeader s hk
  refine ⟨s.afterHeader, execDpEncHdr_emit h, rfl, Option.some.inj (hbyte 0 (by decide)),
    Option.some.inj (hbyte 1 (by decide)), Option.some.inj (hbyte 2 (by decide)),
    Option.some.inj (hbyte 3 (by decide)), fun a ha => ?_⟩
  exact obufByte_memWrite_outside s (.inr ha)

/-- Settles O31: the two outcomes of the capacity test. -/
theorem encodeThroughputStep : Obligations.EncodeThroughputStep := fun s pay _ h hf =>
  ⟨fun hc => ⟨s.afterBody pay, execDpEncTp_emit h hf hc, rfl, fun _ hk => obufByte_afterBody s hk,
      fun _ ha => obufByte_memWrite_outside s ha⟩,
    fun hc => execDpEncTp_full h hf hc⟩

/-- Settles O32: the step is `encodeFrame`, by the outcome of the minor-frame encode and the capacity test. -/
theorem encodeFrameStep : Obligations.EncodeFrameStep := by
  intro s ts hdr ss pay h hf
  have hstep := execDpEncFrStep_of_frame h hf
  have henc := mfuEncode_framed s.codec ts hdr ss pay s.latchS
  refine ⟨?missing, ?encoded⟩
  case missing =>
    rintro rfl
    exact hstep.trans (congrArg _ (encodeFrame_error henc))
  case encoded =>
    rintro t b rfl hb
    have hbytes : mfuEncode s.codec (.fr (some t) hdr ss pay) s.latchS = .ok b := by
      rw [henc, hb]
      rcases ss with _ | ⟨w, f⟩ <;> rfl
    refine ⟨fun hc => ?fits, fun hc => ?full⟩
    case fits =>
      exact ⟨s.afterFrame b, hstep.trans (congrArg _ (encodeFrame_emit hbytes hc)), rfl,
        fun _ hk => obufByte_afterFrame s hk, obufByte_afterFrame_pad s, fun _ => obufByte_afterFrame_outside s⟩
    case full => exact hstep.trans (congrArg _ (encodeFrame_full hbytes hc))

/-- Settles O33: the step where EIDX is the number of frames. -/
theorem encodeStopStep : Obligations.EncodeStopStep := fun _ h he => execDpEncFrStop_of_end h he

end Sys2Proof.Machine
end

section
/-! PROOF. The big-step encode (43_data_packet_encode.md R180) against the big-step decode: the throughput round trip
in both directions (R191; O48) and the framed round trip (R190; O49). -/

namespace Sys2Proof.Machine

/-! The loop of the encode (R180). -/

section
variable {c : Codec} {src : TsSrc} {cap i : Nat} {out out' b : Bytes} {f : MinorFrame} {fs : List MinorFrame}

/-- A frame that encodes and fits is emitted with its pad, and the loop goes on at the next one. -/
theorem encodeFrames_emit (he : mfuEncode c f src = .ok b) (hc : out.length + b.length + b.length % 2 ≤ cap) :
    encodeFrames c src cap i out (f :: fs) = encodeFrames c src cap (i + 1) (out ++ withPad b) fs := by
  rw [encodeFrames, he, withPad, ← List.append_assoc]
  exact if_pos hc

theorem encodeFrames_full (he : mfuEncode c f src = .ok b) (hc : cap < out.length + b.length + b.length % 2) :
    encodeFrames c src cap i out (f :: fs) = .fault .capacityError i := by
  rw [encodeFrames, he]
  exact if_neg (Nat.not_le.2 hc)

theorem encodeFrames_error {k : ErrKind} (he : mfuEncode c f src = .error k) :
    encodeFrames c src cap i out (f :: fs) = .fault k i := by
  rw [encodeFrames, he]

/-- Where the loop succeeds, its first frame encodes and the loop goes on after it. -/
theorem encodeFrames_cons_ok (h : encodeFrames c src cap i out (f :: fs) = .ok out') :
    ∃ b, mfuEncode c f src = .ok b ∧ encodeFrames c src cap (i + 1) (out ++ withPad b) fs = .ok out' := by
  cases he : mfuEncode c f src with
  | error k =>
    rw [encodeFrames_error he] at h
    cases h
  | ok b =>
    by_cases hc : out.length + b.length + b.length % 2 ≤ cap
    · rw [encodeFrames_emit he hc] at h
      exact ⟨b, rfl, h⟩
    · rw [encodeFrames_full he (Nat.not_le.1 hc)] at h
      cases h

/-- The loop only adds to the output. -/
theorem encodeFrames_prefix (h : encodeFrames c src cap i out fs = .ok out') : out <+: out' := by
  induction fs generalizing i out with
  | nil =>
    cases h
    exact List.prefix_rfl
  | cons f fs ih =>
    obtain ⟨b, -, hrest⟩ := encodeFrames_cons_ok h
    exact (List.prefix_append out (withPad b)).trans (ih hrest)

end

/-! The mode word at the start of a packet (30_encoding.md R91). -/

/-- The mode word of an encoded packet is read back. -/
theorem le32_slice_le32Enc (mw : U32) (v : Bytes) : le32 (slice (le32Enc mw ++ v) 0 4) = mw := by
  have hs : slice (le32Enc mw ++ v) 0 4 = le32Enc mw := slice_append_middle (a := []) rfl rfl
  rw [hs, le32_le32Enc]

theorem sliceFrom_le32Enc (mw : U32) (v : Bytes) : sliceFrom (le32Enc mw ++ v) 4 = v := List.drop_left' rfl

/-- The mode word of a buffer is encoded by the four bytes it was read from. -/
theorem le32Enc_le32_slice {buf : Bytes} (h : 4 ≤ buf.length) : le32Enc (le32 (slice buf 0 4)) = buf.take 4 := by
  match buf, h with
  | a :: b :: d :: e :: _, _ => exact le32Enc_le32 a b d e

/-! The end of a decode that succeeds (10_state.md R27). -/

/-- A decode that gives this mode word and these frames ends in READY with a packet equal to theirs. -/
theorem decodeEnd_of_ok {c : Codec} {s : State} {mw : U32} {fr : List MinorFrame} {off : Nat}
    (h : dpDecode c s.inputBuffer s.latchX s.latchP s.latchPV s.latchS = .ok mw fr off) (src : TsSrc) :
    (s.decodeEnd c).status = .ready ∧ dpEq (s.decodeEnd c).packet ⟨mw, src, fr⟩ = true := by
  rw [State.decodeEnd, h]
  exact ⟨rfl, dpEq_of_eq rfl rfl⟩

/-! Throughput packets (R183, R191). -/

section
variable {c : Codec} {src : TsSrc} {cap p : Nat} {x pv : Bool} {mw : U32} {buf out pay : Bytes} {off : Nat}
  {fr : List MinorFrame} {f : MinorFrame}

theorem dpEncode_throughput_full (htp : modeWordTp mw = true) (hf : fr.head? = some f)
    (hc : cap < 4 + f.payload.length) : dpEncode c mw fr src cap = .fault .capacityError 0 := by
  obtain ⟨fs, rfl⟩ := List.head?_eq_some_iff.1 hf
  rw [dpEncode, if_pos htp]
  exact if_neg (Nat.not_le.2 hc)

/-- The output of a throughput packet that encodes is the mode word and the payload. -/
theorem dpEncode_throughput_ok (htp : modeWordTp mw = true) (h : dpEncode c mw [.tp pay] src cap = .ok out) :
    out = le32Enc mw ++ pay := by
  by_cases hc : 4 + pay.length ≤ cap
  · rw [dpEncode_throughput (f := .tp pay) htp rfl hc] at h
    exact (EncodeResult.ok.inj h).symm
  · rw [dpEncode_throughput_full (f := .tp pay) htp rfl (Nat.not_le.1 hc)] at h
    cases h

/-- The mode word and a payload decode to that throughput packet, whatever the configuration. -/
theorem dpDecode_encoded_throughput (htp : modeWordTp mw = true) (pay : Bytes) :
    dpDecode c (le32Enc mw ++ pay) x p pv src = .ok mw [.tp pay] (le32Enc mw ++ pay).length := by
  have hw := le32_slice_le32Enc mw pay
  rw [dpDecode_throughput (by simp) (by rw [hw]; exact htp), hw, sliceFrom_le32Enc]

/-- The loop of the decode gives back the mode word it is handed. -/
theorem decodeRecords_modeWord {rs fuel : Nat} {mw' : U32} {fr' : List MinorFrame} {off' : Nat}
    (h : decodeRecords c buf x rs src mw fuel fr off = .ok mw' fr' off') : mw' = mw := by
  induction fuel generalizing fr off with
  | zero =>
    cases h
    rfl
  | succ fuel ih =>
    by_cases hfit : off + rs ≤ buf.length
    · cases hd : mfuDecode c (slice buf off (off + rs)) false x src with
      | error k =>
        rw [decodeRecords_error hfit hd] at h
        cases h
      | ok f =>
        rw [decodeRecords_record hfit hd] at h
        exact ih h
    · rw [decodeRecords_stop (Nat.not_le.1 hfit)] at h
      cases h
      rfl

/-- What a fault-free decode of a throughput packet gives. -/
theorem dpDecode_throughput_ok (h : dpDecode c buf x p pv src = .ok mw fr off) (htp : modeWordTp mw = true) :
    4 ≤ buf.length ∧ mw = le32 (slice buf 0 4) ∧ fr = [.tp (sliceFrom buf 4)] := by
  by_cases hl : buf.length < 4
  · rw [dpDecode_short hl] at h
    cases h
  have hl : 4 ≤ buf.length := Nat.not_lt.1 hl
  cases hw : modeWordTp (le32 (slice buf 0 4)) with
  | true =>
    rw [dpDecode_throughput hl hw] at h
    cases h
    exact ⟨hl, rfl, rfl⟩
  | false =>
    cases pv with
    | false =>
      rw [dpDecode_noFps hl hw rfl] at h
      cases h
    | true =>
      rw [dpDecode_framed hl hw rfl] at h
      rw [decodeRecords_modeWord h, hw] at htp
      cases htp

/-- A throughput packet that was read from a buffer encodes to that buffer, where OUT_CAP holds it. -/
theorem dpEncode_decoded_throughput (hl : 4 ≤ buf.length) (htp : modeWordTp (le32 (slice buf 0 4)) = true)
    (hc : buf.length ≤ cap) :
    dpEncode c (le32 (slice buf 0 4)) [.tp (sliceFrom buf 4)] src cap = .ok buf := by
  have hlen : 4 + (sliceFrom buf 4).length ≤ cap := by rw [length_sliceFrom]; omega
  rw [dpEncode_throughput (f := .tp (sliceFrom buf 4)) htp rfl hlen, le32Enc_le32_slice hl]
  exact congrArg _ (List.take_append_drop 4 buf)

end

/-- Settles O48: the encode and the decode of a throughput packet are each other's inverse, mode word by mode word and
payload by payload. -/
theorem throughputPacketRoundTrip : Obligations.ThroughputPacketRoundTrip := by
  refine ⟨fun c mw pay src src' cap p x pv out htp h => ?decode,
    fun c buf src src' cap p x pv mw fr off h htp hc => ?encode⟩
  case decode =>
    obtain rfl := dpEncode_throughput_ok htp h
    refine ⟨dpDecode_encoded_throughput htp pay, fun s hs => ?_⟩
    exact decodeEnd_of_ok (hs ▸ dpDecode_encoded_throughput htp pay) src
  case encode =>
    obtain ⟨hl, rfl, rfl⟩ := dpDecode_throughput_ok h htp
    exact dpEncode_decoded_throughput hl htp hc

/-! Framed packets (R190). -/

/-- The slice at a padded record, without its pad, is the record. -/
theorem slice_withPad {out b tail : Bytes} {i j : Nat} (hi : out.length = i) (hj : i + b.length = j) :
    slice (out ++ withPad b ++ tail) i j = b := by
  rw [withPad, ← List.append_assoc, List.append_assoc _ (padBytes b.length)]
  exact slice_append_middle hi hj

/-- A frame that comes back from its record: it has a timestamp that the codec gives back (60_exceptions.md R241), no
sync group and a payload of `n` bytes (R190). -/
def MinorFrame.ComesBack (c : Codec) (src : TsSrc) (n : Nat) (f : MinorFrame) : Prop :=
  ∃ t hdr pay, f = .fr (some t) hdr none pay ∧ pay.length = n ∧ c.dec src (c.enc src t).toList = some t

section
variable {c : Codec} {src : TsSrc} {n cap : Nat}

/-- The record of such a frame has the record size of its payload and decodes to the frame (41_minor_frame_encode.md
R145). -/
theorem MinorFrame.ComesBack.decode_encode {f : MinorFrame} (hf : f.ComesBack c src n) {b : Bytes}
    (he : mfuEncode c f src = .ok b) : b.length = n + 10 ∧ mfuDecode c b false false src = .ok f := by
  obtain ⟨t, hdr, pay, rfl, rfl, hc⟩ := hf
  have hlen : b.length = 10 + pay.length := mfuEncode_length he
  rw [mfuEncode_framed] at he
  cases he
  exact ⟨hlen.trans (Nat.add_comm _ _), mfuDecode_encoded hc hdr none pay⟩

/-- From the end of the output so far, the loop of the decode gives back the frames that the loop of the encode goes on
to emit: every record has the record size, so its pad ends where the next stride begins (20_memory.md R68). -/
theorem decodeRecords_encodeFrames {mw : U32} {fs : List MinorFrame} (hfs : ∀ f ∈ fs, f.ComesBack c src n)
    {i : Nat} {out out' : Bytes} (h : encodeFrames c src cap i out fs = .ok out') {fuel : Nat}
    (hfuel : FuelSuffices out' out.length fuel) (fr : List MinorFrame) :
    decodeRecords c out' false (n + 10) src mw fuel fr out.length = .ok mw (fr ++ fs) out'.length := by
  induction fs generalizing i out fuel fr with
  | nil =>
    cases h
    rw [List.append_nil]
    exact decodeRecords_stop (by omega) fuel
  | cons f fs ih =>
    obtain ⟨hf, hfs⟩ := List.forall_mem_cons.1 hfs
    obtain ⟨b, he, hrest⟩ := encodeFrames_cons_ok h
    obtain ⟨hlen, hdec⟩ := hf.decode_encode he
    obtain ⟨tail, rfl⟩ := encodeFrames_prefix hrest
    have hrec : slice (out ++ withPad b ++ tail) out.length (out.length + (n + 10)) = b :=
      slice_withPad rfl (by rw [hlen])
    have hnext : (out ++ withPad b).length = out.length + padded (n + 10) := by
      rw [List.length_append, length_withPad, hlen, padded]
    have hfit : out.length + (n + 10) ≤ (out ++ withPad b ++ tail).length := by
      have := le_padded (n + 10)
      rw [List.length_append, hnext]
      omega
    cases fuel with
    | zero => exact absurd (lt_of_fuelSuffices_zero hfuel (Nat.le_add_left 10 n)) (Nat.not_lt.2 hfit)
    | succ fuel =>
      have hloop := ih hfs hrest (hnext ▸ hfuel.next (Nat.le_add_left 10 n)) (fr ++ [f])
      rw [hnext] at hloop
      rw [decodeRecords_record hfit (hrec ▸ hdec), hloop, List.append_assoc, List.singleton_append]

/-- The framed round trip: the loops begin after the mode word. -/
theorem dpDecode_dpEncode_framed {mw : U32} {fr : List MinorFrame} {out : Bytes} (htp : modeWordTp mw = false)
    (hfr : ∀ f ∈ fr, f.ComesBack c src n) (h : dpEncode c mw fr src cap = .ok out) :
    dpDecode c out false n true src = .ok mw fr out.length := by
  rw [dpEncode_framed htp] at h
  obtain ⟨tail, hout⟩ := encodeFrames_prefix h
  have hl : 4 ≤ out.length := by
    rw [← hout]
    simp
  have hw : le32 (slice out 0 4) = mw := by
    rw [← hout]
    exact le32_slice_le32Enc mw tail
  rw [dpDecode_framed hl (by rw [hw]; exact htp) rfl, hw]
  exact decodeRecords_encodeFrames hfr h (fuelSuffices_length out 4) []

end

/-- Settles O49: the decode of the output gives the packet back (`dpDecode_dpEncode_framed`), and a machine that decodes
it ends with that packet. -/
theorem framedPacketRoundTrip : Obligations.FramedPacketRoundTrip := by
  intro c mw fr src n cap out htp hfr h
  have hdec : dpDecode c out false n true src = .ok mw fr out.length := dpDecode_dpEncode_framed htp hfr h
  refine ⟨hdec, ?_⟩
  rintro s rfl rfl hx rfl hpv
  exact decodeEnd_of_ok (by rw [hx, hpv]; exact hdec) s.latchS

end Sys2Proof.Machine
end

section
/-! PROOF. An encode that the host leaves alone ends within its bound with the bytes of the big-step rule, or with its
fault (43_data_packet_encode.md R180, R186; O54). Each small step of the framed encode takes one turn of the loop of
R180. -/

namespace Sys2Proof.Machine

/-! The encode steps as steps of the machine (30_encoding.md R104, 70_reset_and_hazards.md R271). -/

section
variable {s : State}

/-- In E_FR an item is left where EIDX is below the number of frames (30_encoding.md R104). -/
theorem more_of_eFr (h : s.phase = .eFr) : s.more = decide (s.eidx < s.frameCount) := by
  simp only [State.more, h]

theorem step_of_eHdr (hh : s.host = []) (h : s.phase = .eHdr) : step s = execDpEncHdr s :=
  step_of_selected (i := .dpEncHdr) hh (by simp [h]) (by rw [h]; rfl)

theorem step_of_eTp (hh : s.host = []) (h : s.phase = .eTp) : step s = execDpEncTp s :=
  step_of_selected (i := .dpEncTp) hh (by simp [h]) (by rw [h]; rfl)

theorem step_of_eFr_frame {f : MinorFrame} (hh : s.host = []) (h : s.phase = .eFr) (hf : s.frames[s.eidx]? = some f) :
    step s = .next (encodeFrame s.codec f s) := by
  obtain ⟨hlt, -⟩ := List.getElem?_eq_some_iff.1 hf
  have hsel : decode (.step s.phase s.more) = .ok .dpEncFrStep := by
    rw [more_of_eFr h, decide_eq_true (show s.eidx < s.frameCount from hlt), h]
    rfl
  exact (step_of_selected hh (by simp [h]) hsel).trans (execDpEncFrStep_of_frame h hf)

theorem step_of_eFr_stop (hh : s.host = []) (h : s.phase = .eFr) (he : s.eidx = s.frames.length) :
    step s = .next s.endEncode := by
  have hsel : decode (.step s.phase s.more) = .ok .dpEncFrStop := by
    rw [more_of_eFr h, decide_eq_false (show ¬ s.eidx < s.frameCount from he.not_lt), h]
    rfl
  exact (step_of_selected hh (by simp [h]) hsel).trans (execDpEncFrStop_of_end h he)

end

/-! The end of an encode (R180). -/

/-- The state `t` is what the encode that runs in `s` leaves when it has this result. -/
def State.EncodeEndsIn (s t : State) : EncodeResult → Prop
  | .ok out => t = { s with
      obuf := Memory.setBytes s.obuf 0 out, outLen := out.length, outValid := true
      eidx := t.eidx, status := s.ret.status, phase := .idle }
  | .fault kind i => t = { s.takeEncodeFault kind i with obuf := t.obuf, eidx := t.eidx }

/-- The encode that began in `s` has emitted `out` and stands before frame `i`. -/
def State.emitted (s : State) (out : Bytes) (i : Nat) : State :=
  { s with obuf := Memory.setBytes s.obuf 0 out, outLen := out.length, eidx := i, phase := .eFr }

section
variable {s : State}

theorem encodeEndsIn_endEncode (out : Bytes) (i : Nat) : s.EncodeEndsIn (s.emitted out i).endEncode (.ok out) := rfl

theorem encodeEndsIn_fault (out : Bytes) (k : ErrKind) (i : Nat) :
    s.EncodeEndsIn ((s.emitted out i).takeEncodeFault k i) (.fault k i) := rfl

/-- Emitting a frame adds its bytes and its pad to what was emitted. -/
theorem afterFrame_emitted (out b : Bytes) (i : Nat) :
    (s.emitted out i).afterFrame b = s.emitted (out ++ withPad b) (i + 1) := by
  simp only [State.afterFrame, State.emitted, State.memWrite, Memory.setBytes_append, List.length_append,
    length_withPad, Nat.zero_add, Nat.add_assoc]

/-- The step at a frame, where the frames before it are emitted. -/
theorem step_emitted (hh : s.host = []) {done fs : List MinorFrame} {f : MinorFrame} (hfs : s.frames = done ++ f :: fs)
    (out : Bytes) : step (s.emitted out done.length)
      = .next (encodeFrame s.codec f (s.emitted out done.length)) := by
  have hf : s.frames[done.length]? = some f := by
    rw [hfs, List.getElem?_append_right le_rfl, Nat.sub_self]
    rfl
  exact step_of_eFr_frame (s := s.emitted out done.length) hh rfl hf

/-- The steps of the framed encode take one turn of the loop each: a frame that is emitted leads to the rest of the
loop, and one that is not, or the end of the frames, ends the encode as the loop ends. -/
theorem emitted_runsTo_end (hh : s.host = []) {done fs : List MinorFrame} {out : Bytes}
    (hfs : s.frames = done ++ fs) : ∃ t, (s.emitted out done.length).RunsTo (fs.length + 1) t
      ∧ s.EncodeEndsIn t (encodeFrames s.codec s.latchS s.params.outCap done.length out fs) := by
  induction fs generalizing done out with
  | nil =>
    have hend : done.length = s.frames.length := by rw [hfs, List.append_nil]
    exact ⟨_, runsTo_one (step_of_eFr_stop (s := s.emitted out done.length) hh rfl hend),
      encodeEndsIn_endEncode out _⟩
  | cons f fs ih =>
    have hstep := step_emitted hh hfs out
    cases he : mfuEncode s.codec f s.latchS with
    | error k =>
      rw [encodeFrame_error (s := s.emitted out done.length) he] at hstep
      rw [encodeFrames_error he]
      exact ⟨_, runsTo_of_last_step hstep _, encodeEndsIn_fault out k _⟩
    | ok b =>
      by_cases hc : out.length + b.length + b.length % 2 ≤ s.params.outCap
      · rw [encodeFrame_emit (s := s.emitted out done.length) he hc, afterFrame_emitted] at hstep
        obtain ⟨t, hrun, hend⟩ := ih (done := done ++ [f]) (out := out ++ withPad b) (by simpa using hfs)
        rw [List.length_append] at hrun hend
        rw [encodeFrames_emit he hc]
        exact ⟨t, runsTo_of_step hstep hrun, hend⟩
      · have hc : s.params.outCap < out.length + b.length + b.length % 2 := Nat.not_le.1 hc
        rw [encodeFrame_full (s := s.emitted out done.length) he hc] at hstep
        rw [encodeFrames_full he hc]
        exact ⟨_, runsTo_of_last_step hstep _, encodeEndsIn_fault out _ _⟩

/-! The whole encode (R182 to R185). -/

/-- A framed packet: after the mode word the loop begins at frame EIDX. -/
theorem afterHeader_framed (htp : modeWordTp s.modeWord = false) :
    s.afterHeader = s.emitted (le32Enc s.modeWord) s.eidx := by
  rw [State.afterHeader, encodeRoute_eq_eFr.2 htp]
  rfl

/-- The body after the mode word completes the output of a throughput packet. -/
theorem encodeEndsIn_afterBody (pay : Bytes) :
    s.EncodeEndsIn (s.afterHeader.afterBody pay) (.ok (le32Enc s.modeWord ++ pay)) := by
  simp only [State.EncodeEndsIn, State.afterBody, State.endEncode, State.afterHeader, State.memWrite,
    Memory.setBytes_append, List.length_append, length_le32Enc, Nat.zero_add]

/-- A throughput packet: the step after the mode word ends the encode. -/
theorem afterHeader_step_throughput (hh : s.host = []) (htp : modeWordTp s.modeWord = true)
    (hn : s.frames.length = 1) : ∃ t, step s.afterHeader = .next t
      ∧ s.EncodeEndsIn t (dpEncode s.codec s.modeWord s.frames s.latchS s.params.outCap) := by
  obtain ⟨f, hf⟩ := List.length_eq_one_iff.1 hn
  have hhead : s.frames.head? = some f := by rw [hf]; rfl
  have hp : s.afterHeader.phase = .eTp := encodeRoute_eq_eTp.2 htp
  have hstep := step_of_eTp (s := s.afterHeader) hh hp
  by_cases hc : 4 + f.payload.length ≤ s.params.outCap
  · refine ⟨_, hstep.trans (execDpEncTp_emit hp hf hc), ?_⟩
    rw [dpEncode_throughput htp hhead hc]
    exact encodeEndsIn_afterBody f.payload
  · have hc : s.params.outCap < 4 + f.payload.length := Nat.not_le.1 hc
    refine ⟨_, hstep.trans (execDpEncTp_full hp hf hc), ?_⟩
    rw [dpEncode_throughput_full htp hhead hc]
    rfl

/-- Once the mode word is emitted, the encode takes at most one step for each frame, and one more. -/
theorem afterHeader_runsTo_end (hs : s.Inv) (hh : s.host = []) (h : s.phase = .eHdr) :
    ∃ t, s.afterHeader.RunsTo (s.frames.length + 1) t
      ∧ s.EncodeEndsIn t (dpEncode s.codec s.modeWord s.frames s.latchS s.params.outCap) := by
  cases htp : modeWordTp s.modeWord with
  | true =>
    obtain ⟨t, hstep, hend⟩ := afterHeader_step_throughput hh htp (hs.encode.ret_ready (.inl h) htp)
    exact ⟨t, runsTo_of_last_step hstep _, hend⟩
  | false =>
    obtain ⟨-, hi⟩ := hs.encode.eHdr h
    rw [afterHeader_framed htp, hi, dpEncode_framed htp]
    exact emitted_runsTo_end hh (done := []) rfl

end

/-- Settles O54: DP.ENC.HDR leads to `afterHeader_runsTo_end`. -/
theorem encodeEndsAsBigStep : Obligations.EncodeEndsAsBigStep := by
  intro s hs h hh
  obtain ⟨t, hrest, hend⟩ := afterHeader_runsTo_end hs hh h
  have hstep : step s = .next s.afterHeader := (step_of_eHdr hh h).trans (execDpEncHdr_emit h)
  obtain ⟨n, hn, hrun⟩ := runsTo_of_step hstep hrest
  refine ⟨n, t, hn, hrun, ?_⟩
  cases hr : dpEncode s.codec s.modeWord s.frames s.latchS s.params.outCap <;> rwa [hr] at hend

end Sys2Proof.Machine
end

section
/-! PROOF. The host commands (44_host_commands.md R196 to R203, R207; O8, O9, O12 to O14): what each command gives in
each state of R196's table, and CMD.APPEND by the outcome of its checks. -/

namespace Sys2Proof.Machine

/-! The refusals that STATE decides (R196, R207). -/

section
variable {s : State}

/-- The operations that a write of CMD starts (30_encoding.md R103). -/
def hostCommands : List Instr :=
  [.cmdNop, .cmdClear, .cmdDecode, .cmdEncode, .cmdAppend, .cmdReserved5, .cmdReserved6, .cmdReserved7]

/-- The reserved codes share one meaning (R207). -/
theorem exec_reservedCodes (s : State) :
    ∀ i ∈ [Instr.cmdReserved5, .cmdReserved6, .cmdReserved7], exec i s = .next s.refuseReserved := by
  simp only [List.forall_mem_cons, List.not_mem_nil, IsEmpty.forall_iff, implies_true, and_true]
  exact ⟨rfl, rfl, rfl⟩

theorem refuseReserved_of_busy (h : s.status = .busy) : s.refuseReserved = s.refuse .locked := by
  simp only [State.refuseReserved, h]

/-- Outside BUSY a reserved code is refused with BadCmd (R207). -/
theorem refuseReserved_of_not_busy (h : s.status ≠ .busy) : s.refuseReserved = s.refuse .badCmd := by
  cases hs : s.status with
  | busy => exact absurd hs h
  | empty | ready | faulted => simp only [State.refuseReserved, hs]

/-- While BUSY every command is refused with Locked. -/
theorem exec_hostCommands_of_busy (h : s.status = .busy) :
    ∀ i ∈ hostCommands, exec i s = .next (s.refuse .locked) := by
  have hreserved := exec_reservedCodes s
  rw [refuseReserved_of_busy h] at hreserved
  rw [hostCommands]
  iterate 5 rw [List.forall_mem_cons]
  refine ⟨?nop, ?clear, ?decode, ?encode, ?append, hreserved⟩
  case nop => simp only [exec, execCmdNop, h]
  case clear => simp only [exec, execCmdClear, h]
  case decode => simp only [exec, execCmdDecode, h]
  case encode => simp only [exec, execCmdEncode, h]
  case append => simp only [exec, execCmdAppend, h]

/-- In FAULTED the commands that work on the packet are refused with BadState. -/
theorem exec_packetCommands_of_faulted (h : s.status = .faulted) :
    ∀ i ∈ [Instr.cmdDecode, .cmdEncode, .cmdAppend], exec i s = .next (s.refuse .badState) := by
  simp only [List.forall_mem_cons, List.not_mem_nil, IsEmpty.forall_iff,
    implies_true, and_true]
  refine ⟨?decode, ?encode, ?append⟩
  case decode => simp only [exec, execCmdDecode, h]
  case encode => simp only [exec, execCmdEncode, h]
  case append => simp only [exec, execCmdAppend, h]

theorem execCmdDecode_of_ready (h : s.status = .ready) : execCmdDecode s = .next (s.refuse .badState) := by
  simp only [execCmdDecode, h]

/-- An EMPTY throughput packet has no frame to emit (R199). -/
theorem execCmdEncode_of_empty_throughput (h : s.status = .empty) (htp : s.tp = true) :
    execCmdEncode s = .next (s.refuse .badState) := by
  simp only [execCmdEncode, h, if_pos htp]

/-! The commands that every state but BUSY accepts (R197, R203). -/

theorem execCmdNop_of_not_busy (h : s.status ≠ .busy) : execCmdNop s = .next s := by
  cases hs : s.status with
  | busy => exact absurd hs h
  | empty | ready | faulted => simp only [execCmdNop, hs]

theorem execCmdClear_of_not_busy (h : s.status ≠ .busy) : execCmdClear s = .next s.clear := by
  cases hs : s.status with
  | busy => exact absurd hs h
  | empty | ready | faulted => simp only [execCmdClear, hs]

/-! CMD.APPEND (R200, R202). -/

theorem appendRefusal_of_other_mode (hmode : s.aTp ≠ s.tp) : s.appendRefusal = some .invariant := if_pos hmode

theorem appendRefusal_of_second_throughput (hmode : s.aTp = s.tp) (hsecond : s.tp = true ∧ 1 ≤ s.frameCount) :
    s.appendRefusal = some .invariant :=
  (if_neg (not_not.2 hmode)).trans (if_pos hsecond)

theorem appendRefusal_of_full (hmode : s.aTp = s.tp) (hfirst : ¬ (s.tp = true ∧ 1 ≤ s.frameCount))
    (hfull : s.params.frmCap ≤ s.frameCount) : s.appendRefusal = some .capacity :=
  (if_neg (not_not.2 hmode)).trans ((if_neg hfirst).trans (if_neg (Nat.not_lt.2 hfull)))

theorem appendRefusal_of_room (hmode : s.aTp = s.tp) (hfirst : ¬ (s.tp = true ∧ 1 ≤ s.frameCount))
    (hroom : s.frameCount < s.params.frmCap) : s.appendRefusal = none :=
  appendRefusal_eq_none.2 ⟨hmode, fun htp => Nat.lt_one_iff.1 (Nat.not_le.1 (not_and.1 hfirst htp)), hroom⟩

/-- In EMPTY and READY the checks on the staged frame decide. -/
theorem execCmdAppend_of_accepting (h : s.status = .empty ∨ s.status = .ready) :
    execCmdAppend s = s.appendStaged := by
  rcases h with h | h <;> simp only [execCmdAppend, h]

theorem execCmdAppend_refused {r : RefCode} (h : s.status = .empty ∨ s.status = .ready)
    (hr : s.appendRefusal = some r) : execCmdAppend s = .next (s.refuse r) := by
  simp only [execCmdAppend_of_accepting h, State.appendStaged, hr]

/-- The staged bytes that an append copies (R200). -/
def State.stagedBytes (s : State) : Bytes := (List.range' 0 s.aPlen).map s.apayByte

theorem length_stagedBytes (s : State) : s.stagedBytes.length = s.aPlen := by simp [State.stagedBytes]

theorem getElem?_stagedBytes {k : Nat} (h : k < s.aPlen) : s.stagedBytes[k]? = some (s.apayByte k) := by
  simp [State.stagedBytes, h]

theorem execCmdAppend_accepted (h : s.status = .empty ∨ s.status = .ready) (hr : s.appendRefusal = none)
    (hp : s.aPlen ≤ s.params.payCap) :
    execCmdAppend s = .next { s.pushFrame (s.stagedFrame s.stagedBytes) with
      outValid := false, outLen := 0, status := .ready } := by
  have hpay : s.stagedPayload = some s.stagedBytes := stagedPayload_eq_some.2 ⟨hp, rfl⟩
  simp only [execCmdAppend_of_accepting h, State.appendStaged, hr, hpay]

end

/-! The obligations. -/

/-- Settles O8: BUSY is the one state that refuses CMD.NOP. -/
theorem nopChangesNothing : Obligations.NopChangesNothing := fun _ =>
  ⟨fun h => execCmdNop_of_not_busy h, fun h => exec_hostCommands_of_busy h .cmdNop (by simp [hostCommands])⟩

/-- Settles O9: outside BUSY the command is `State.clear`, whose fields are the listed ones. -/
theorem clearConstructsEmptyPacket : Obligations.ClearConstructsEmptyPacket := fun _ =>
  ⟨fun h => execCmdClear_of_not_busy h, fun h => exec_hostCommands_of_busy h .cmdClear (by simp [hostCommands])⟩

/-- Settles O12: the payload is the staged bytes, and the frame `State.stagedFrame` of them. -/
theorem appendAddsStagedFrame : Obligations.AppendAddsStagedFrame := fun s h hmode hfirst hroom hp =>
  ⟨s.stagedBytes, length_stagedBytes s, fun _ hk => getElem?_stagedBytes hk,
    execCmdAppend_accepted h (appendRefusal_of_room hmode hfirst hroom) hp⟩

/-- Settles O13: first what STATE decides, then the three checks of `State.appendRefusal`. -/
theorem appendChecksInOrder : Obligations.AppendChecksInOrder := fun _ =>
  ⟨fun h => exec_hostCommands_of_busy h .cmdAppend (by simp [hostCommands]),
    fun h => exec_packetCommands_of_faulted h .cmdAppend (by simp),
    fun h => ⟨fun hmode => execCmdAppend_refused h (appendRefusal_of_other_mode hmode),
      fun hmode hsecond => execCmdAppend_refused h (appendRefusal_of_second_throughput hmode hsecond),
      fun hmode hfirst hfull => execCmdAppend_refused h (appendRefusal_of_full hmode hfirst hfull)⟩⟩

/-- Settles O14: the table column by column, BUSY first. -/
theorem commandAcceptanceTable : Obligations.CommandAcceptanceTable := fun s =>
  ⟨exec_hostCommands_of_busy,
    fun h => ⟨execCmdNop_of_not_busy h, execCmdClear_of_not_busy h,
      fun i hi => (exec_reservedCodes s i hi).trans (congrArg _ (refuseReserved_of_not_busy h))⟩,
    fun h => ⟨execCmdDecode_of_empty h, execCmdEncode_of_empty h, execCmdEncode_of_empty_throughput h⟩,
    fun h => ⟨execCmdDecode_of_ready h, execCmdEncode_of_ready h⟩,
    exec_packetCommands_of_faulted,
    fun h hr hp => ⟨s.stagedFrame s.stagedBytes, execCmdAppend_accepted h hr hp⟩⟩

end Sys2Proof.Machine
end

section
/-! PROOF. The read-out ports (44_host_commands.md R204 to R206; O34 to O36) and the register writes outside BUSY (R208;
O37). -/

namespace Sys2Proof.Machine

/-! What the ports reach. -/

section
variable {s : State}

/-- A frame is readable where STATE is EMPTY or READY and the index is in range (R204). -/
theorem readableFrame_eq_some {i : Nat} {f : MinorFrame} : s.readableFrame i = some f ↔
    (s.status = .empty ∨ s.status = .ready) ∧ s.frames[i]? = some f := by
  simp [State.readableFrame, State.framesReadable]

theorem readableFrame_eq_none {i : Nat} (h : s.frames.length ≤ i ∨ s.status = .busy ∨ s.status = .faulted) :
    s.readableFrame i = none := by
  refine Option.eq_none_iff_forall_ne_some.2 fun f hf => ?_
  obtain ⟨hstatus, hget⟩ := readableFrame_eq_some.1 hf
  rcases h with hi | hb | hb
  · rw [List.getElem?_eq_none hi] at hget
    cases hget
  · simp [hb] at hstatus
  · simp [hb] at hstatus

theorem readPay_of_frame {i : Nat} {f : MinorFrame} (hf : s.readableFrame i = some f) (k : Nat) :
    s.readPay i k = f.payload[k]? := by
  simp only [State.readPay, hf]

theorem readPay_of_none {i : Nat} (hf : s.readableFrame i = none) (k : Nat) : s.readPay i k = none := by
  simp only [State.readPay, hf]

/-- Past the payload RD.PAY answers not valid, whether or not the frame is readable (R205). -/
theorem readPay_past_end {i k : Nat} {f : MinorFrame} (hf : s.frames[i]? = some f) (hk : f.payload.length ≤ k) :
    s.readPay i k = none := by
  cases hr : s.readableFrame i with
  | none => exact readPay_of_none hr k
  | some g =>
    have hg : s.frames[i]? = some g := (readableFrame_eq_some.1 hr).2
    obtain rfl : f = g := Option.some.inj (hf.symm.trans hg)
    rw [readPay_of_frame hr, List.getElem?_eq_none hk]

/-- When RD.OUT answers valid (R206). -/
theorem outReadable_iff {k : Nat} :
    s.outReadable k = true ↔ s.outValid = true ∧ s.status ≠ .busy ∧ k < s.outLen := by
  simp [State.outReadable, and_assoc]

/-- A readable output byte exists, since OUT_LEN is at most OUT_CAP (10_state.md R45). -/
theorem execRdOut_of_readable {k : Nat} (h : s.outReadable k = true) (hc : s.outLen ≤ s.params.outCap) :
    execRdOut k s = .next (s.showAnswer (.byte (some (s.obufByte k)))) := by
  obtain ⟨-, -, hk⟩ := outReadable_iff.1 h
  exact (if_pos h).trans (if_pos (hk.trans_le hc))

theorem execRdOut_of_not_readable {k : Nat} (h : ¬ s.outReadable k = true) :
    execRdOut k s = .next (s.showAnswer (.byte none)) := if_neg h

/-! Register writes (R208). -/

/-- Outside BUSY a write to a writable register stores (R208). -/
theorem hostWrite_of_not_busy {n : Nat} {r : Reg} (h : s.status ≠ .busy) (hr : regOfNumber n = some r)
    (hw : r.ignoresWrites = false) (v : Nat) : s.hostWrite n v = .next (s.writeRegIdle r v) := by
  simp only [State.hostWrite, hr, State.writeReg, hw, if_neg h, Bool.false_eq_true, if_false]

/-- In every state a write to a read-only register or to register 15 changes nothing (10_state.md R28). -/
theorem hostWrite_of_ignoresWrites {n : Nat} {r : Reg} (hr : regOfNumber n = some r)
    (hw : r.ignoresWrites = true) (v : Nat) : s.hostWrite n v = .next s := by
  simp only [State.hostWrite, hr, State.writeReg, hw, if_true]

/-- The numbers of the read-only registers, and register 15. -/
theorem regOfNumber_ignoresWrites :
    ∀ n ∈ [4, 6, 7, 8, 9, 10, 11, 12, 13, 14, 15], (regOfNumber n).map Reg.ignoresWrites = some true := by
  decide

theorem hostWrite_readOnly {n : Nat} (hn : n ∈ [4, 6, 7, 8, 9, 10, 11, 12, 13, 14, 15]) (v : Nat) :
    s.hostWrite n v = .next s := by
  obtain ⟨r, hr, hw⟩ := Option.map_eq_some_iff.1 (regOfNumber_ignoresWrites n hn)
  exact hostWrite_of_ignoresWrites hr hw v

/-- CTRL keeps the two bits it has (10_state.md R29). -/
theorem ctrlStored_eq (v : Nat) : ctrlStored v = BitVec.ofNat 32 (v % 4) := by
  refine BitVec.eq_of_toNat_eq ?_
  rw [ctrlStored, BitVec.toNat_and, BitVec.toNat_ofNat, BitVec.toNat_ofNat, BitVec.toNat_ofNat,
    show 3 % 2 ^ 32 = 2 ^ 2 - 1 by decide, Nat.and_two_pow_sub_one_eq_mod]
  omega

/-- Outside BUSY, MODE_WORD is stored in EMPTY and refused otherwise (10_state.md R37). -/
theorem writeModeWord_of_not_busy (h : s.status ≠ .busy) (v : Nat) :
    s.writeModeWord v = if s.status = .empty
      then { s with modeWord := BitVec.ofNat 32 v, outValid := false, outLen := 0 }
      else s.refuse .badState := by
  cases hs : s.status with
  | busy => exact absurd hs h
  | empty | ready | faulted => simp [State.writeModeWord, hs]

end

/-! The obligations. -/

/-- Settles O34: the frame that the port reaches, and the cases in which it reaches none. -/
theorem readFramePort : Obligations.ReadFramePort := by
  intro s i
  refine ⟨fun f hs hf => ?valid, fun h => ?notValid⟩
  case valid =>
    rw [exec, execRdFrame, readableFrame_eq_some.2 ⟨hs, hf⟩]
    rfl
  case notValid =>
    rw [exec, execRdFrame, readableFrame_eq_none h]
    rfl

/-- Settles O35: the byte of the frame that RD.FRAME reaches, past its end, and where it reaches none. -/
theorem readPayloadPort : Obligations.ReadPayloadPort := by
  intro s i k
  have hport {b : Option Byte} (h : s.readPay i k = b) :
      exec (.rdPay i k) s = .next { s with answer := .byte b } := by
    rw [exec, execRdPay, h]
    rfl
  exact ⟨fun f b hs hf hb => hport ((readPay_of_frame (readableFrame_eq_some.2 ⟨hs, hf⟩) k).trans hb),
    fun f hf hk => hport (readPay_past_end hf hk), fun h => hport (readPay_of_none (readableFrame_eq_none h) k)⟩

/-- Settles O36: the conditions of `outReadable_iff`, met or not. -/
theorem readOutPort : Obligations.ReadOutPort := by
  intro s k
  refine ⟨fun hv hs hk hc => execRdOut_of_readable (outReadable_iff.2 ⟨hv, hs, hk⟩) hc,
    fun h => execRdOut_of_not_readable fun hr => ?_⟩
  obtain ⟨hv, hs, hk⟩ := outReadable_iff.1 hr
  rcases h with h | h | h
  · simp [hv] at h
  · exact hs h
  · exact Nat.not_le.2 hk h

/-- Settles O37: each number names its register, and `State.writeRegIdle` says what the register stores. -/
theorem registerWritesOutsideBusy : Obligations.RegisterWritesOutsideBusy := by
  intro s v h
  have hstore (r : Reg) {n : Nat} (hr : regOfNumber n = some r) (hw : r.ignoresWrites = false) :
      s.hostWrite n v = .next (s.writeRegIdle r v) := hostWrite_of_not_busy h hr hw v
  refine ⟨(hstore .ctrl rfl rfl).trans ?ctrl, hstore .fps rfl rfl, hstore .bufLen rfl rfl,
    (hstore .modeWord rfl rfl).trans ?modeWord, fun n hn => hostWrite_readOnly hn v, hstore .aFlags rfl rfl,
    hstore .aTs rfl rfl, hstore .aHdr rfl rfl, hstore .aSync rfl rfl, hstore .aSfid rfl rfl, hstore .aPlen rfl rfl⟩
  case ctrl => rw [State.writeRegIdle, ctrlStored_eq]
  case modeWord => exact congrArg _ (writeModeWord_of_not_busy h v)

end Sys2Proof.Machine
end

section
/-! PROOF. Refusals and the fault record (60_exceptions.md R224 to R233; O15, O29, O38), and that a recorded fault stays
until CMD.CLEAR or a reset (R226; O55), said once for the changes of `Change` (Laws/Step.lean). -/

namespace Sys2Proof.Machine

section
variable {s : State}

/-! The refusal (R232). -/

/-- A refusal after a first one leaves the whole state. -/
theorem refuse_of_refused (h : s.refCode ≠ none) (c : RefCode) : s.refuse c = s := by
  obtain ⟨r, hr⟩ := Option.ne_none_iff_exists'.1 h
  have hkept : some (s.refCode.getD c) = s.refCode := by rw [hr, Option.getD_some]
  rw [refuse_eq, hkept]

/-- Settles O15: `refuse_eq` with REF_CODE 0, with an earlier code, and in both cases. -/
theorem refusalRecordsFirstCode : Obligations.RefusalRecordsFirstCode := by
  intro s c
  refine ⟨fun h => ?first, fun h => refuse_of_refused h c, ?refused⟩
  case first => rw [refuse_eq, h, Option.getD_none]
  case refused => rw [refuse_eq]; rfl

/-! Writes while BUSY (R233). -/

/-- While BUSY a write to a writable register is refused with Locked. -/
theorem hostWrite_of_busy {n : Nat} {r : Reg} (h : s.status = .busy) (hr : regOfNumber n = some r)
    (hw : r.ignoresWrites = false) (v : Nat) : s.hostWrite n v = .next (s.refuse .locked) := by
  simp only [State.hostWrite, hr, State.writeReg, hw, if_pos h, Bool.false_eq_true, if_false]

/-- The numbers of the writable registers but CMD (10_state.md R28). -/
theorem regOfNumber_takesWrites :
    ∀ n ∈ [0, 1, 2, 5, 16, 17, 18, 19, 20, 21], (regOfNumber n).map Reg.ignoresWrites = some false := by
  decide

/-- Settles O38: a writable register by its number, a read-only one as in every state, and the two byte ports. -/
theorem writesLockedWhileBusy : Obligations.WritesLockedWhileBusy := by
  intro s v a b h
  refine ⟨fun n hn => ?writable, fun n hn => hostWrite_readOnly hn v, if_pos h, if_pos h⟩
  case writable =>
    obtain ⟨r, hr, hw⟩ := Option.map_eq_some_iff.1 (regOfNumber_takesWrites n hn)
    exact hostWrite_of_busy h hr hw v

/-! The entries of the two faults (R224 to R226). -/

theorem takeDecodeFault_first (h : s.errKind = none) (kind : ErrKind) (cause : Option ErrKind) :
    s.takeDecodeFault kind cause = { s with
      errKind := some kind, errCause := cause, errOffset := s.offset, errLen := s.latchL, errIndex := 0,
      frames := [], outValid := false, outLen := 0, status := .faulted, phase := .idle } := by
  simp only [State.takeDecodeFault, onFirstFault_of_none h]

theorem takeDecodeFault_recorded (h : s.errKind ≠ none) (kind : ErrKind) (cause : Option ErrKind) :
    s.takeDecodeFault kind cause = { s with
      frames := [], outValid := false, outLen := 0, status := .faulted, phase := .idle } := by
  simp only [State.takeDecodeFault, onFirstFault_of_some h]

theorem takeEncodeFault_first (h : s.errKind = none) (kind : ErrKind) (index : Nat) :
    s.takeEncodeFault kind index = { s with
      errKind := some kind, errCause := none, errOffset := 0, errLen := 0, errIndex := index,
      outValid := false, outLen := 0, status := s.ret.status, phase := .idle } := by
  simp only [State.takeEncodeFault, onFirstFault_of_none h]

theorem takeEncodeFault_recorded (h : s.errKind ≠ none) (kind : ErrKind) (index : Nat) :
    s.takeEncodeFault kind index = { s with
      outValid := false, outLen := 0, status := s.ret.status, phase := .idle } := by
  simp only [State.takeEncodeFault, onFirstFault_of_some h]

/-- Settles O29: each entry on an empty record and on a filled one. -/
theorem faultEntries : Obligations.FaultEntries := fun _ kind cause index =>
  ⟨fun h => takeDecodeFault_first h kind cause, fun h => takeDecodeFault_recorded h kind cause,
    fun h => takeEncodeFault_first h kind index, fun h => takeEncodeFault_recorded h kind index⟩

/-! The fault record over a step (R226). -/

/-- The five error registers (10_state.md R39). -/
def State.errorRecord (s : State) : Option ErrKind × Option ErrKind × Nat × Nat × Nat :=
  (s.errKind, s.errCause, s.errOffset, s.errLen, s.errIndex)

theorem errorRecord_takeDecodeFault (h : s.errKind ≠ none) (kind : ErrKind) (cause : Option ErrKind) :
    (s.takeDecodeFault kind cause).errorRecord = s.errorRecord := by
  rw [takeDecodeFault_recorded h]
  rfl

theorem errorRecord_takeEncodeFault (h : s.errKind ≠ none) (kind : ErrKind) (index : Nat) :
    (s.takeEncodeFault kind index).errorRecord = s.errorRecord := by
  rw [takeEncodeFault_recorded h]
  rfl

/-- A register write touches no error register (10_state.md R28). -/
theorem errorRecord_writeRegIdle (s : State) (r : Reg) (v : Nat) :
    (s.writeRegIdle r v).errorRecord = s.errorRecord := by
  cases r with
  | bufLen => simp only [State.writeRegIdle, State.writeBufLen]; split <;> rfl
  | aPlen => simp only [State.writeRegIdle, State.writeAPlen]; split <;> rfl
  | modeWord => simp only [State.writeRegIdle, State.writeModeWord]; split <;> rfl
  | _ => rfl

/-- A change keeps a recorded fault, unless it is CMD.CLEAR outside BUSY. -/
theorem errorRecord_of_change {op : Option HostOp} {t : State} (hk : s.errKind ≠ none) (h : Change op s t) :
    t.errorRecord = s.errorRecord ∨ ∃ v, op = some (.write 3 v) ∧ v % 8 = 1 ∧ s.status ≠ .busy := by
  cases h with
  | clear v hop hv h => exact .inr ⟨v, hop, hv, h⟩
  | modeShort | noFps | recordFault => exact .inl (errorRecord_takeDecodeFault hk _ _)
  | encTpFault | encFrameError | encFrameFault => exact .inl (errorRecord_takeEncodeFault hk _ _)
  | writeReg r v => exact .inl (errorRecord_writeRegIdle s r v)
  | _ => exact .inl rfl

end

/-- Settles O55: the premises exclude a reset and the one change of `errorRecord_of_change` that clears the record. -/
theorem faultRecordIsSticky : Obligations.FaultRecordIsSticky := by
  intro s t h hk hreset hclear
  have hrecord : t.errorRecord = s.errorRecord := by
    rcases step_cases h with ⟨rest, hhost, -⟩ | hchange
    · exact absurd hhost (hreset rest)
    · rcases errorRecord_of_change (s := s.withHost s.host.tail) hk hchange with hsame | ⟨v, hop, hv, hbusy⟩
      · exact hsame
      · obtain ⟨rest, hhost⟩ := List.head?_eq_some_iff.1 hop
        exact absurd (hclear v rest hhost hv) hbusy
  simpa only [State.errorRecord, Prod.mk.injEq] using hrecord

end Sys2Proof.Machine
end

section
/-! PROOF. A step from a sound state never stops (60_exceptions.md R220, 70_reset_and_hazards.md R271; O52): the fetched
wires select an operation, and the invariant keeps that operation within its enabling condition and within the addresses
that exist. -/

namespace Sys2Proof.Machine

section
variable {s : State}

/-! The host commands (44_host_commands.md R196). -/

theorem execCmdDecode_next (h : s.status ≠ .busy) : ∃ t, execCmdDecode s = .next t := by
  cases hst : s.status with
  | busy => exact absurd hst h
  | empty => exact ⟨_, execCmdDecode_of_empty hst⟩
  | ready => exact ⟨_, execCmdDecode_of_ready hst⟩
  | faulted => exact ⟨_, exec_packetCommands_of_faulted hst .cmdDecode (by simp)⟩

theorem execCmdEncode_next (h : s.status ≠ .busy) : ∃ t, execCmdEncode s = .next t := by
  cases hst : s.status with
  | busy => exact absurd hst h
  | empty =>
    cases htp : s.tp with
    | true => exact ⟨_, execCmdEncode_of_empty_throughput hst htp⟩
    | false => exact ⟨_, execCmdEncode_of_empty hst htp⟩
  | ready => exact ⟨_, execCmdEncode_of_ready hst⟩
  | faulted => exact ⟨_, exec_packetCommands_of_faulted hst .cmdEncode (by simp)⟩

/-- The staged payload of a sound state lies inside A_PAY (10_state.md R42). -/
theorem execCmdAppend_next_of_accepting (hs : s.Inv) (h : s.status = .empty ∨ s.status = .ready) :
    ∃ t, execCmdAppend s = .next t := by
  cases hr : s.appendRefusal with
  | some r => exact ⟨_, execCmdAppend_refused h hr⟩
  | none => exact ⟨_, execCmdAppend_accepted h hr hs.bounded.aPlen_le⟩

theorem execCmdAppend_next (hs : s.Inv) (h : s.status ≠ .busy) : ∃ t, execCmdAppend s = .next t := by
  cases hst : s.status with
  | busy => exact absurd hst h
  | empty => exact execCmdAppend_next_of_accepting hs (.inl hst)
  | ready => exact execCmdAppend_next_of_accepting hs (.inr hst)
  | faulted => exact ⟨_, exec_packetCommands_of_faulted hst .cmdAppend (by simp)⟩

theorem exec_hostCommands_next (hs : s.Inv) : ∀ i ∈ hostCommands, ∃ t, exec i s = .next t := by
  by_cases hb : s.status = .busy
  · exact fun i hi => ⟨_, exec_hostCommands_of_busy hb i hi⟩
  · rw [hostCommands]
    iterate 5 rw [List.forall_mem_cons]
    exact ⟨⟨_, execCmdNop_of_not_busy hb⟩, ⟨_, execCmdClear_of_not_busy hb⟩, execCmdDecode_next hb,
      execCmdEncode_next hb, execCmdAppend_next hs hb, fun i hi => ⟨_, exec_reservedCodes s i hi⟩⟩

/-! The decode steps (42_data_packet_decode.md R161 to R167). -/

theorem execDpMode_next (h : s.phase = .dMode) : ∃ t, execDpMode s = .next t := by
  rcases Nat.lt_or_ge s.latchL 4 with hl | hl
  · exact ⟨_, execDpMode_short h hl⟩
  · exact ⟨_, execDpMode_read h hl⟩

theorem execDpDecTp_next (hs : s.Inv) (h : s.phase = .dTp) : ∃ t, execDpDecTp s = .next t := by
  obtain ⟨-, hl, -, -⟩ := hs.decode.dTp h
  exact ⟨_, execDpDecTp_body h hl hs.bounded.latchL_le⟩

theorem execDpDecFr_next (h : s.phase = .dFre) : ∃ t, execDpDecFr s = .next t := by
  cases hpv : s.latchPV with
  | true => exact ⟨_, execDpDecFr_enter h hpv⟩
  | false => exact ⟨_, execDpDecFr_noFps h hpv⟩

/-- A record that fits lies inside IBUF (10_state.md R44). -/
theorem execDpDecFrStep_next (hs : s.Inv) (h : s.phase = .dFr) (hf : s.offset + s.rs ≤ s.latchL) :
    ∃ t, execDpDecFrStep s = .next t := by
  have hc : s.offset + s.rs ≤ s.params.bufCap := hf.trans hs.bounded.latchL_le
  rw [execDpDecFrStep_of_fits h hf]
  cases hd : mfuDecode s.codec (s.ibufSlice s.offset s.rs) false s.latchX s.latchS with
  | ok f => exact ⟨_, decodeRecord_ok hc hd⟩
  | error k => exact ⟨_, decodeRecord_error hc hd⟩

/-! The encode steps (43_data_packet_encode.md R182 to R185). -/

/-- A throughput packet that is encoded has its frame (43_data_packet_encode.md R183). -/
theorem execDpEncTp_next (hs : s.Inv) (h : s.phase = .eTp) : ∃ t, execDpEncTp s = .next t := by
  obtain ⟨htp, -⟩ := hs.encode.eTp h
  obtain ⟨f, hf⟩ := List.length_eq_one_iff.1 (hs.encode.ret_ready (.inr (.inl h)) htp)
  rcases Nat.lt_or_ge s.params.outCap (4 + f.payload.length) with hc | hc
  · exact ⟨_, execDpEncTp_full h hf hc⟩
  · exact ⟨_, execDpEncTp_emit h hf hc⟩

/-! What the selecting wires run (30_encoding.md R103, R104, R106). -/

/-- The wires select an operation that gives a next state. -/
def State.Runs (s : State) (sel : Selector) : Prop := ∃ t, runSelected sel s = .next t

theorem runs_of_exec {sel : Selector} {i : Instr} (hd : decode sel = .ok i) (he : ∃ t, exec i s = .next t) :
    s.Runs sel := by
  simpa only [State.Runs, runSelected, hd] using he

/-- Every command code selects one of the commands (R103). -/
theorem decodeCommand_mem : ∀ code : BitVec 3, decodeCommand code ∈ hostCommands := by decide

theorem runs_command (hs : s.Inv) (v : Nat) : s.Runs (.command v) :=
  runs_of_exec rfl (exec_hostCommands_next hs _ (decodeCommand_mem _))

/-- While a command runs, PHASE and the comparison select a step that is enabled (R104). -/
theorem runs_step (hs : s.Inv) (hp : s.phase ≠ .idle) : s.Runs (.step s.phase s.more) := by
  cases h : s.phase with
  | idle => exact absurd h hp
  | dMode => exact runs_of_exec rfl (execDpMode_next h)
  | dTp => exact runs_of_exec rfl (execDpDecTp_next hs h)
  | dFre => exact runs_of_exec rfl (execDpDecFr_next h)
  | dFr =>
    rw [more_of_dFr h]
    rcases Nat.lt_or_ge s.latchL (s.offset + s.rs) with hf | hf
    · rw [not_fits_of_lt hf]
      exact runs_of_exec rfl ⟨_, execDpDecFrStop_of_not_fits h hf⟩
    · rw [fits_of_le hf]
      exact runs_of_exec rfl (execDpDecFrStep_next hs h hf)
  | eHdr => exact runs_of_exec rfl ⟨_, execDpEncHdr_emit h⟩
  | eTp => exact runs_of_exec rfl (execDpEncTp_next hs h)
  | eFr =>
    obtain ⟨-, hle, -, -⟩ := hs.encode.eFr h
    rw [more_of_eFr h]
    rcases hle.lt_or_eq with hlt | heq
    · rw [decide_eq_true hlt]
      exact runs_of_exec rfl ⟨_, execDpEncFrStep_of_frame h (List.getElem?_eq_getElem hlt)⟩
    · rw [decide_eq_false heq.not_lt]
      exact runs_of_exec rfl ⟨_, execDpEncFrStop_of_end h heq⟩

/-- The output of a sound state lies inside OBUF (10_state.md R45). -/
theorem runs_portOut (hs : s.Inv) (k : Nat) : s.Runs (.portOut k) := by
  by_cases hr : s.outReadable k = true
  · exact runs_of_exec rfl ⟨_, execRdOut_of_readable hr hs.bounded.outLen_le⟩
  · exact runs_of_exec rfl ⟨_, execRdOut_of_not_readable hr⟩

/-! The registers that exist (10_state.md R28). -/

theorem regOfNumber_of_le : ∀ n ≤ 21, ∃ r, regOfNumber n = some r := by
  simp only [← Option.isSome_iff_exists]
  decide

theorem hostWrite_next {n : Nat} (hn : n ≤ 21) (v : Nat) : ∃ t, s.hostWrite n v = .next t := by
  obtain ⟨r, hr⟩ := regOfNumber_of_le n hn
  exact ⟨s.writeReg r v, by simp only [State.hostWrite, hr]⟩

theorem hostRead_next {n : Nat} (hn : n ≤ 21) : ∃ t, s.hostRead n = .next t := by
  obtain ⟨r, hr⟩ := regOfNumber_of_le n hn
  exact ⟨_, hostRead_of_regValue hr rfl⟩

/-! A step. -/

theorem step_next_of_runs {t : State} {sel : Selector} (hf : fetch s = .run sel t) (hr : t.Runs sel) :
    ∃ u, step s = .next u := by
  simpa only [step, hf, State.Runs] using hr

/-- The sequencer's turn: it waits, or takes the step that is selected (70_reset_and_hazards.md R252, R271). -/
theorem step_next_of_fetchStep {t : State} (ht : t.Inv) (hf : fetch s = t.fetchStep) : ∃ u, step s = .next u := by
  by_cases hp : t.phase = .idle
  · exact ⟨t, step_of_fetch_idle (hf.trans (fetchStep_of_idle hp))⟩
  · exact step_next_of_runs (hf.trans (fetchStep_of_running hp)) (runs_step ht hp)

end

/-- Settles O52: each host action, in the state from whose list it has been taken. -/
theorem soundStatesNeverStop : Obligations.SoundStatesNeverStop := by
  intro s hs hreg
  cases hh : s.host with
  | nil => exact step_next_of_fetchStep hs (fetch_nil hh)
  | cons op rest =>
    have hrest : (s.withHost rest).Inv := inv_host hs rest
    have hop : op.namesRegister = true := hreg op (by rw [hh, List.head?_cons])
    cases op with
    | tick => exact step_next_of_fetchStep hrest (fetch_tick hh)
    | write reg v =>
      by_cases h3 : reg = 3
      · subst h3
        exact step_next_of_runs (fetch_command hh) (runs_command hrest v)
      · rw [step_of_fetch_write (fetch_write hh h3)]
        exact hostWrite_next (of_decide_eq_true hop) v
    | read reg =>
      rw [step_of_fetch_read (fetch_read hh)]
      exact hostRead_next (of_decide_eq_true hop)
    | writeIbuf a b => exact ⟨_, step_of_fetch_writeIbuf (fetch_writeIbuf hh)⟩
    | writeApay a b => exact ⟨_, step_of_fetch_writeApay (fetch_writeApay hh)⟩
    | rdFrame i => exact step_next_of_runs (fetch_rdFrame hh) ⟨_, rfl⟩
    | rdPay i k => exact step_next_of_runs (fetch_rdPay hh) ⟨_, rfl⟩
    | rdOut k => exact step_next_of_runs (fetch_rdOut hh) (runs_portOut hrest k)
    | reset => exact ⟨(s.withHost rest).applyReset, by simp only [step, fetch, hh, State.withHost]⟩

end Sys2Proof.Machine
end

section
/-! PROOF. Reset (70_reset_and_hazards.md R250, R251; O3): a reset is fetched ahead of the sequencer's turn, and what it
gives takes nothing from the state but the parameters, the reset count and the host's coming actions. -/

namespace Sys2Proof.Machine

section
variable {s t : State} {rest : List HostOp}

/-- No condition on PHASE or STATE: reset is the one thing that can end a command early. -/
theorem fetch_reset (h : s.host = .reset :: rest) : fetch s = .reset (s.withHost rest) := by
  simp only [fetch, h, State.withHost]

theorem step_of_fetch_reset (hf : fetch s = .reset t) : step s = .next t.applyReset := by
  simp only [step, hf]

theorem applyReset_withHost (s : State) (rest : List HostOp) :
    (s.withHost rest).applyReset = (State.resetWith s.params (s.resets + 1)).withHost rest := rfl

end

/-- Settles O3: what is fetched is the reset, and it gives the reset state whatever the state was. -/
theorem resetFromAnyState : Obligations.ResetFromAnyState := by
  intro s rest h
  calc step s
    _ = .next (s.withHost rest).applyReset := step_of_fetch_reset (fetch_reset h)
    _ = .next ((State.resetWith s.params (s.resets + 1)).withHost rest) := by rw [applyReset_withHost]

end Sys2Proof.Machine
end
